-- ==== Sys2Proof/Word.lean ====
section
/-! DEFINITION. The bytes of the deck link and the index ranges of the objects of the LC-96 (00_scope.md, section 0.5). -/

namespace Sys2Proof

/-- One byte of a deck link frame (section 8.1: 8 data bits). -/
abbrev Byte := BitVec 8

/-- The item field of a request frame, 0..65535 (R143). -/
abbrev Item := BitVec 16

/-- A jack index, 0..95 (section 0.5.2). -/
abbrev JackIx := Fin 96

/-- A sector index, 0..23 (section 0.5.2). -/
abbrev SectorIx := Fin 24

/-- A probe index, 0..11 (section 0.5.2). -/
abbrev ProbeIx := Fin 12

/-- A layer slot, 0..255 (section 0.5.2). -/
abbrev Slot := Fin 256

end Sys2Proof
end

