-- ==== Sys2Proof/Syntax.lean ====
section
/-! DEFINITION. The commands of the LC-96: one constructor for each row of spec/opcode_table.json, in the table's order. -/

namespace Sys2Proof

/-- The four deck link ports (section 0.3). -/
inductive Port where
  /-- Port 1, hydraulic station A. -/
  | stationA
  /-- Port 2, hydraulic station B. -/
  | stationB
  /-- Port 3, the concrete feed controller. -/
  | feed
  /-- Port 4, the deck console. -/
  | console
deriving DecidableEq, Repr

/-- What the sounder terminals read (R163). -/
inductive SounderLoad where
  | present
  | openCircuit
  | shorted
deriving DecidableEq, Repr

/-- What DIAGNOSE finds outside the module's working state at the moment it looks (R163): whether the two memories
still hold what was written there, the sensed state of each PERMIT contact, and the sounder load (log entry 6). -/
structure Findings where
  retainedIntact : Bool
  storeIntact    : Bool
  /-- PERMIT_A sensed closed at its terminals. -/
  sensedA        : Bool
  /-- PERMIT_B sensed closed at its terminals. -/
  sensedB        : Bool
  load           : SounderLoad
deriving DecidableEq, Repr

/-- A command: one step of the table. A request row is the moment a frame with that request code completes on the port
(R144); `item` and `payload` are the frame's own fields. Where several rows share one request code and differ by the
payload's first byte, that byte is the row's and `tail` is the rest of the payload (log entry 5). -/
inductive Instr where
  | deckSummary (port : Port) (item : Item) (payload : List Byte)
  | jackRead (port : Port) (item : Item) (payload : List Byte)
  | sectorRead (port : Port) (item : Item) (payload : List Byte)
  | layerRead (port : Port) (item : Item) (payload : List Byte)
  | probeRead (port : Port) (item : Item) (payload : List Byte)
  | planRead (port : Port) (item : Item) (payload : List Byte)
  /-- PLAN READ with item 0 (R140). -/
  | planReadState (port : Port) (payload : List Byte)
  | identity (port : Port) (item : Item) (payload : List Byte)
  | strokeDemand (port : Port) (item : Item) (payload : List Byte)
  | strokeReport (port : Port) (item : Item) (payload : List Byte)
  | strokeCancel (port : Port) (item : Item) (payload : List Byte)
  | stationView (port : Port) (item : Item) (payload : List Byte)
  | layerPlaced (port : Port) (item : Item) (payload : List Byte)
  | feedAdvice (port : Port) (item : Item) (payload : List Byte)
  | layerWithdraw (port : Port) (item : Item) (payload : List Byte)
  | holdPlace (port : Port) (item : Item) (payload : List Byte)
  | holdRelease (port : Port) (item : Item) (payload : List Byte)
  | holdList (port : Port) (item : Item) (payload : List Byte)
  | modeSet (port : Port) (item : Item) (payload : List Byte)
  | survey (port : Port) (item : Item) (payload : List Byte)
  | rodExtend (port : Port) (item : Item) (payload : List Byte)
  /-- JACK SET whose action byte is 1; `tail` follows the action byte. -/
  | jackSetExclude (port : Port) (item : Item) (tail : List Byte)
  /-- JACK SET whose action byte is 2. -/
  | jackSetInclude (port : Port) (item : Item) (tail : List Byte)
  /-- JACK SET whose action byte is 3. -/
  | jackSetClear (port : Port) (item : Item) (tail : List Byte)
  /-- JACK DEFINE whose action byte is 1; `tail` holds station, group and sector. -/
  | jackDefine (port : Port) (item : Item) (tail : List Byte)
  /-- JACK DEFINE whose action byte is 2. -/
  | jackUndefine (port : Port) (item : Item) (tail : List Byte)
  /-- SECTOR DEFINE whose action byte is 1; `tail` holds the probe. -/
  | sectorDefine (port : Port) (item : Item) (tail : List Byte)
  /-- SECTOR DEFINE whose action byte is 2. -/
  | sectorUndefine (port : Port) (item : Item) (tail : List Byte)
  | sectorBase (port : Port) (item : Item) (payload : List Byte)
  | planStage (port : Port) (item : Item) (payload : List Byte)
  | planApply (port : Port) (item : Item) (payload : List Byte)
  | silence (port : Port) (item : Item) (payload : List Byte)
  | configSave (port : Port) (item : Item) (payload : List Byte)
  /-- The store has been written and read back; the operand says whether the check read back matched. -/
  | configSaveEnd (readBackGood : Bool)
  | configLoad (port : Port) (item : Item) (payload : List Byte)
  /-- The store has been read; the operand says whether the store still holds what was written there. -/
  | configLoadEnd (storeIntact : Bool)
  | configFactory (port : Port) (item : Item) (payload : List Byte)
  | configFactoryEnd
  | clearDeck (port : Port) (item : Item) (payload : List Byte)
  | restart (port : Port) (item : Item) (payload : List Byte)
  | diagnose (port : Port) (item : Item) (payload : List Byte) (seen : Findings)
  | counters (port : Port) (item : Item) (payload : List Byte)
  /-- COUNTERS whose page byte is 0. -/
  | countersReadClear (port : Port) (item : Item) (tail : List Byte)
  | portSet (port : Port) (item : Item) (payload : List Byte)
  /-- A frame completes whose received check differs from the one formed over these fields. -/
  | frameCheckFail (port : Port) (code : Byte) (item : Item) (payload : List Byte)
  | frameLengthDiscard (port : Port)
  | frameOverrunDiscard (port : Port)
  | gapTimerExpiry (port : Port)
  | answerSent (port : Port)
  | aliveTimerExpiry (port : Port)
  | grantExpiry (jack : JackIx)
  /-- The twelve conversions (0.1 °C) and the backup cell's reading in millivolts (R174). -/
  | probeSampleExpiry (samples : Vector Int 12) (battery : Nat)
  | maturityIntervalExpiry
  /-- The HOLD line takes a level: low or not. -/
  | holdLineChange (low : Bool)
  | holdFilterExpiry
  | deckClockAdvance
  | powerOn
  | powerFail
  | resetLineLow
  | resetLineHigh
  | runMarkBreak
  /-- The sequence of R171, with what its memory checks find and the backup cell's reading in millivolts. -/
  | startUpSequence (retainedIntact storeIntact : Bool) (battery : Nat)
  /-- One byte on a port's line; `seen` is read only when the byte completes a DIAGNOSE frame. -/
  | byteReceived (port : Port) (byte : Byte) (seen : Findings)
  | unknownRequestCode (port : Port) (code : Byte) (item : Item) (payload : List Byte)
deriving DecidableEq, Repr

end Sys2Proof
end

