-- ==== Sys2Proof/Decode.lean ====
section
/-! DEFINITION. The command a word of spec/opcode_table.json spells: no row of the table gives bits. -/

namespace Sys2Proof

/-- No row of spec/opcode_table.json carries `fixed` bits or `fields`, so no word spells a command (log entry 1). -/
def decodeTableWord (_nbits _w : Nat) : Option Instr := none

end Sys2Proof
end

