-- ==== Sys2Proof/Machine/Records.lean ====
section
/-! DEFINITION. The records that the blocks of the LC-96 hold, as plain data. Each follows the table of the chapter that
owns it. -/

namespace Sys2Proof.Machine

/-! ### The Jack Table (chapter 1) -/

/-- The two hydraulic stations. -/
inductive Station where
  | A
  | B
deriving DecidableEq, Repr

/-- The jack states of section 1.3, in code order. -/
inductive JackState where
  | undefined
  | unsurveyed
  | ready
  | granted
  | stalled
  | slip
  | rodEnd
  | excluded
deriving DecidableEq, Repr

/-- The live fields of a jack record (section 1.2, R2). Lengths in 0.1 mm. -/
structure JackLive where
  state       : JackState
  height      : Nat
  rod         : Nat
  lastLength  : Nat
  /-- Last grant second; none is "absent". -/
  lastSecond  : Option Nat
  shortCount  : Nat
  overrun     : Bool
  ungranted   : Bool
  strokeCount : Nat
  stallCount  : Nat
deriving DecidableEq, Repr

/-- A jack record: identity fields and live fields (section 1.2). `defined` is read off the state (R4). -/
structure Jack where
  station : Station
  group   : Fin 8
  sector  : SectorIx
  live    : JackLive
deriving DecidableEq, Repr

/-- The default live fields (section 1.2). -/
def JackLive.default : JackLive where
  state := .undefined
  height := 0
  rod := 0
  lastLength := 0
  lastSecond := none
  shortCount := 0
  overrun := false
  ungranted := false
  strokeCount := 0
  stallCount := 0

/-- The record of an index with no defined jack (R1, section 1.2). -/
def Jack.undefined : Jack where
  station := .A
  group := 0
  sector := 0
  live := JackLive.default

/-- The live fields of a newly defined jack (R5). -/
def JackLive.fresh : JackLive := { JackLive.default with state := .unsurveyed }

/-! ### The Layer Store (chapter 2) and the sector records (section 1.9) -/

/-- A layer record in its slot (section 2.2). -/
structure Layer where
  slot     : Slot
  sector   : SectorIx
  base     : Nat
  top      : Nat
  mixClass : Fin 4
  maturity : Nat
  age      : Nat
  released : Bool
  stuck    : Bool
deriving DecidableEq, Repr

/-- The live fields of a sector record (section 1.9). The chain is bottom to top. -/
structure SectorLive where
  based   : Bool
  hHard   : Nat
  chain   : List Layer
  placed  : Nat
  retired : Nat
deriving DecidableEq, Repr

/-- A sector record (section 1.9). A probe of none is NONE. -/
structure Sector where
  defined : Bool
  probe   : Option ProbeIx
  live    : SectorLive
deriving DecidableEq, Repr

def SectorLive.default : SectorLive where
  based := false
  hHard := 0
  chain := []
  placed := 0
  retired := 0

def Sector.undefined : Sector where
  defined := false
  probe := none
  live := SectorLive.default

/-- The free list after a reset of the pool: slot 0 on top, then ascending (R24). -/
def freshPool : List Slot := List.finRange 256

/-! ### The Probe Unit (chapter 3) -/

inductive ProbeState where
  | new
  | good
  | fault
deriving DecidableEq, Repr

/-- A probe record (section 3.1). Temperatures in 0.1 °C. -/
structure Probe where
  state       : ProbeState
  window      : Vector Int 4
  writeIndex  : Fin 4
  /-- Last sample; none is "absent". -/
  lastSample  : Option Int
  lastValid   : Bool
  invalidRun  : Nat
  recoveryRun : Nat
  faultCount  : Nat
deriving DecidableEq, Repr

/-- A probe record after each start-up cause (section 3.1). -/
def Probe.fresh : Probe where
  state := .new
  window := Vector.replicate 4 0
  writeIndex := 0
  lastSample := none
  lastValid := false
  invalidRun := 0
  recoveryRun := 0
  faultCount := 0

/-! ### Deck Control (chapter 6) -/

/-- The deck modes of section 6.1, in code order. -/
inductive Mode where
  | survey
  | ready
  | rise
  | crawl
deriving DecidableEq, Repr

/-- The sources of hold entries (R115), in code order. -/
inductive HoldSource where
  | line
  | stationA
  | stationB
  | feed
  | console
  | part
deriving DecidableEq, Repr

/-- The reasons of hold entries (R115). -/
inductive HoldReason where
  | operator
  | pump
  | feed
  | inspection
  | weather
  | other
  | line
  | exposed
  | ungrantedMove
  | crawlLimit
deriving DecidableEq, Repr

/-- The qualifier of a hold entry (R114). -/
inductive Qualifier where
  | none
  | jack (j : JackIx)
  | sector (k : SectorIx)
deriving DecidableEq, Repr

/-- A hold entry (R114). -/
structure Hold where
  source    : HoldSource
  reason    : HoldReason
  qualifier : Qualifier
  placed    : Nat
deriving DecidableEq, Repr

/-- The filtered state of the HOLD line (section 6.6). -/
inductive FilterState where
  | undecided
  | negated
  | asserted
deriving DecidableEq, Repr

/-! ### The Grant Unit (chapter 5) -/

/-- A record of the grant table; its jack is its index in the table (section 5.1). -/
structure Grant where
  station : Station
  length  : Nat
  issued  : Nat
  expires : Nat
  mode    : Mode
deriving DecidableEq, Repr

/-! ### The Plan Unit (chapter 7) -/

/-- A plan parameter: its number in section 7.1 less one. -/
abbrev Param := Fin 25

/-- The 25 parameters of section 7.1, in the table's order. -/
structure Plan where
  values : Vector Int 25
deriving DecidableEq, Repr

/-- The default plan (section 7.1). -/
def Plan.factory : Plan where
  values := #v[200, 100, 250, 30, 30, 12, 12, 11000, 2500, 500, 500, -100, 20, 50, 15, 3000, 5,
    72000, 180000, 48000, 150000, 108000, 240000, 72000, 180000]

/-! ### The deck link (chapter 8) -/

/-- The port speeds, in code order (R142). -/
inductive Speed where
  | b9600
  | b19200
  | b38400
  | b57600
  | b115200
deriving DecidableEq, Repr

/-- The port counters (section 8.7). -/
structure PortCounters where
  good    : Nat
  check   : Nat
  gap     : Nat
  length  : Nat
  overrun : Nat
  refused : Nat
deriving DecidableEq, Repr

def PortCounters.zero : PortCounters := ⟨0, 0, 0, 0, 0, 0⟩

/-- The answer codes (R150). -/
inductive AnswerKind where
  | accept
  | refuse
deriving DecidableEq, Repr

/-- An answer being sent: its code, the echo of the request code, and its payload (R150). -/
structure Answer where
  kind    : AnswerKind
  request : Byte
  payload : List Byte
deriving DecidableEq, Repr

/-- A port's receiver (section 8.3). A frame being gathered is kept in the order received; in SERVING the empty list
is the search for a lead. The gap timer runs while a frame is being gathered. -/
inductive Receiver where
  | listening
  | collecting (frame : List Byte)
  | answering (answer : Answer)
  | serving (frame : List Byte)
deriving DecidableEq, Repr

/-- A port: its receiver, the speed held for it in the configuration in use, the speed its line runs at (R142), and
its counters. -/
structure PortRec where
  receiver  : Receiver
  speed     : Speed
  lineSpeed : Speed
  counters  : PortCounters
deriving DecidableEq, Repr

/-! ### The Annunciator (chapter 9) -/

/-- The five sounder conditions (section 9.1), in priority order. -/
inductive Condition where
  | held
  | level
  | lag
  | stall
  | probe
deriving DecidableEq, Repr

/-- A set of sounder conditions. -/
structure Conditions where
  held  : Bool
  level : Bool
  lag   : Bool
  stall : Bool
  probe : Bool
deriving DecidableEq, Repr

def Conditions.empty : Conditions := ⟨false, false, false, false, false⟩

/-- The pattern playing, how far into its cycle it is (R157, in ms), and the mute set. -/
structure Sounder where
  playing    : Option Condition
  positionMs : Nat
  muted      : Conditions
deriving DecidableEq, Repr

/-- The eight deck counters (section 9.5). -/
structure DeckCounters where
  grantsIssued    : Nat
  expiries        : Nat
  lateReports     : Nat
  ungrantedMoves  : Nat
  slips           : Nat
  layersPlaced    : Nat
  layersRetired   : Nat
  layersWithdrawn : Nat
deriving DecidableEq, Repr

def DeckCounters.zero : DeckCounters := ⟨0, 0, 0, 0, 0, 0, 0, 0⟩

/-! ### Retention and Store (chapter 10) -/

/-- What retained memory keeps of a sector (R165). -/
structure RetainedSector where
  defined : Bool
  live    : SectorLive
deriving DecidableEq, Repr

/-- The contents of retained memory, over which its check is formed (R165): the copy of the live deck, the last-alive
stamp, and the battery seconds counter with its run mark (R166). The counter's value is the deck clock. -/
structure RetainedCopy where
  jacks      : Vector JackLive 96
  sectors    : Vector RetainedSector 24
  freeList   : List Slot
  holds      : List Hold
  crawlEntry : Option Nat
  planSerial : Nat
  counters   : DeckCounters
  stamp      : Nat
  counter    : Nat
  runMark    : Bool
deriving DecidableEq, Repr

/-- Retained memory (R165): its contents and the CRC-16 held for them. -/
structure Retained extends RetainedCopy where
  check : BitVec 16
deriving DecidableEq, Repr

structure JackDef where
  station : Station
  group   : Fin 8
  sector  : SectorIx
deriving DecidableEq, Repr

structure SectorDef where
  probe : Option ProbeIx
deriving DecidableEq, Repr

/-- A configuration (section 10.2): definitions, plan and port speeds. -/
structure Configuration where
  jacks   : Vector (Option JackDef) 96
  sectors : Vector (Option SectorDef) 24
  plan    : Plan
  speeds  : Vector Speed 4
deriving DecidableEq, Repr

/-- The factory image (section 10.2). -/
def Configuration.factory : Configuration where
  jacks := Vector.replicate 96 none
  sectors := Vector.replicate 24 none
  plan := Plan.factory
  speeds := Vector.replicate 4 .b57600

/-- The configuration store and the CRC-16 held in it (R167). -/
structure Store where
  contents : Configuration
  check    : BitVec 16
deriving DecidableEq, Repr

/-- The store request in progress (section 10.3); a save holds its snapshot and the plan serial at its taking. -/
inductive StoreOp where
  | save (snapshot : Configuration) (serial : Nat)
  | load
  | factory
deriving DecidableEq, Repr

/-- What follows once the outstanding answer has left port 4 (R164, R170). -/
inductive AfterAnswer where
  | nothing
  | restart
  | retainedLoss
deriving DecidableEq, Repr

/-- Whether the module is powered, in reset, about to run the start-up sequence, or running (R165, R170). -/
inductive Phase where
  | off
  | inReset
  /-- A start-up cause has come and the sequence is next; the operand says that a DIAGNOSE with a failed retained
  check is the cause (R164). -/
  | starting (retainedBad : Bool)
  | running
deriving DecidableEq, Repr

end Sys2Proof.Machine
end

