-- ==== Sys2Proof/Config.lean ====
section
/-! DEFINITION. What one LC-96 has fixed in the part and the manual leaves to it, as opaque constants. -/

namespace Sys2Proof.Config

/-- The design revision of this part less one (R155: 1..255, fixed in the part). No body: no statement can
rest on a particular revision (log entry 3). -/
opaque revisionIndex : Fin 255

/-- The design revision that IDENTITY sends, 1..255 (R155). -/
def designRevision : Nat := revisionIndex.val + 1

/-- The fixed order in which the part lays out its retained contents for their check (R165: "in a fixed order"). No
body (log entry 14). -/
opaque retainedLayout : Machine.RetainedCopy → List Byte

/-- The order in which the part lays out the configuration for the store's check (R167). No body (log entry 14). -/
opaque storeLayout : Machine.Configuration → List Byte

/-- By how much the check of a damaged memory differs from the one formed, less one. No body (log entry 6). -/
opaque damageIndex : Fin 65535

/-- By how much the check of a damaged memory differs from the one formed: not 0. -/
def damage : BitVec 16 := BitVec.ofNat 16 (damageIndex.val + 1)

end Sys2Proof.Config
end

