-- ==== Sys2Proof/Machine/Checks.lean ====
section
/-! DEFINITION. The CRC-16 of the deck link and of the two memories (R144, R165, R167): how it is formed, and what a
memory's held check says. -/

namespace Sys2Proof.Machine

/-! ### The check (R144) -/

/-- One bit of a byte, most significant first, through the CRC register (polynomial 0x1021). -/
def crcBit (r : BitVec 16) : BitVec 16 := if r.msb then (r <<< 1) ^^^ 0x1021 else r <<< 1

/-- One byte through the CRC register. -/
def crcByte (r : BitVec 16) (b : Byte) : BitVec 16 :=
  crcBit (crcBit (crcBit (crcBit (crcBit (crcBit (crcBit (crcBit (r ^^^ (b.setWidth 16 <<< 8)))))))))

/-- The CRC-16 over bytes in the order sent, from 0xFFFF. -/
def crc16 (bytes : List Byte) : BitVec 16 := bytes.foldl crcByte 0xFFFF

/-! ### The retained check (R165) -/

/-- The check formed over the contents of retained memory, by the polynomial, initial value and bit order of R144. The order of
the contents is the part's own (log entry 14). -/
def RetainedCopy.formed (c : RetainedCopy) : BitVec 16 := crc16 (Config.retainedLayout c)

/-- The held check matches the one formed over the contents. -/
def Retained.checkGood (m : Retained) : Bool := m.check == m.formed

/-- Retained memory that has lost what was written: its check no longer matches, by an amount left open (log entry 6). -/
def Retained.spoil (m : Retained) : Retained := { m with check := m.formed ^^^ Config.damage }

/-- Retained memory after a change of its counter or its run mark: the held check moves with the one formed, so that a
check that matched is the one formed over the new contents, and one that did not still does not (log entry 14). -/
def Retained.recheck (m changed : Retained) : Retained :=
  { changed with check := m.check ^^^ m.formed ^^^ changed.formed }

/-- Retained memory as a look at it finds it: whole, or lost since it was written. -/
def Retained.found (m : Retained) (intact : Bool) : Retained := if intact then m else m.spoil

/-! ### The store's check (R167) -/

/-- The check formed over a configuration, as for retained memory. -/
def Configuration.formed (c : Configuration) : BitVec 16 := crc16 (Config.storeLayout c)

/-- The store after a write of a configuration and its check. -/
def Store.holding (c : Configuration) : Store := ⟨c, c.formed⟩

/-- The held check matches the one formed over the contents. -/
def Store.checkGood (m : Store) : Bool := m.check == m.contents.formed

/-- A store whose check does not match: a write that stopped or failed, or contents lost since. -/
def Store.spoil (m : Store) : Store := { m with check := m.contents.formed ^^^ Config.damage }

/-- The store as a look at it finds it. -/
def Store.found (m : Store) (intact : Bool) : Store := if intact then m else m.spoil

end Sys2Proof.Machine
end

