-- ==== Sys2Proof/Machine/State.lean ====
section
/-! DEFINITION. Every piece of state the manual gives the LC-96, as plain data, and the machine right after its first
start-up. -/

namespace Sys2Proof.Machine

/-- No command of this machine faults: the manual describes no event that stops the module with an error. -/
inductive Fault where
deriving DecidableEq, Repr

/-- Why a command has no meaning. -/
inductive Refusal where
  /-- Raised by an arm of exec whose command has no meaning yet (no arm of this model is such an arm). Safe: the
  model stops where the module goes on. -/
  | notModelled (mnemonic : String)
deriving DecidableEq, Repr

/-! ### The whole machine -/

/-- The state of the LC-96. -/
structure State where
  phase            : Phase
  jacks            : Vector Jack 96
  sectors          : Vector Sector 24
  freeList         : List Slot
  probes           : Vector Probe 12
  /-- The sample timer and the interval timer are running (R47, R55). -/
  sampleTimer      : Bool
  intervalTimer    : Bool
  grants           : Vector (Option Grant) 96
  mode             : Mode
  crawlEntry       : Option Nat
  /-- The hold set, oldest first (R114). -/
  holds            : List Hold
  /-- The HOLD input is low. -/
  holdLow          : Bool
  holdFilter       : FilterState
  holdTimer        : Bool
  /-- The alive timers of ports 1 and 2: the seconds a running one was started for, none when expired (R126). -/
  aliveA           : Option Nat
  aliveB           : Option Nat
  /-- The driven state of the PERMIT contacts: true is closed (R127). -/
  permitA          : Bool
  permitB          : Bool
  active           : Plan
  staged           : Plan
  planSerial       : Nat
  planRejected     : Bool
  ports            : Vector PortRec 4
  sounder          : Sounder
  counters         : DeckCounters
  retained         : Retained
  store            : Store
  storeBad         : Bool
  retainLost       : Bool
  storeOp          : Option StoreOp
  afterAnswer      : AfterAnswer
  batteryLow       : Bool
  /-- The RESET input has been low for 10 ms. -/
  resetLow         : Bool
  /-- The commands that wait, the first at the head (the model's own field, log entry 2). -/
  pending          : List Instr
deriving DecidableEq, Repr

/-- A port after each start-up cause (section 8.3, R141). -/
def PortRec.fresh (speed : Speed) : PortRec where
  receiver := .listening
  speed := speed
  lineSpeed := speed
  counters := PortCounters.zero

/-- The copy that the retained-loss path writes with nothing defined (R172). -/
def RetainedCopy.cleared : RetainedCopy where
  jacks := Vector.replicate 96 JackLive.default
  sectors := Vector.replicate 24 ⟨false, SectorLive.default⟩
  freeList := freshPool
  holds := []
  crawlEntry := none
  planSerial := 0
  counters := DeckCounters.zero
  stamp := 0
  counter := 0
  runMark := true

/-- Retained memory as the retained-loss path leaves it with nothing defined (R172). -/
def Retained.cleared : Retained where
  toRetainedCopy := RetainedCopy.cleared
  check := RetainedCopy.cleared.formed

/-- The machine right after its first start-up (section 11.2): a store saved from the factory image, retained memory
never written, so the retained-loss path with RETAIN_LOST set and, with nothing defined, mode READY (log entry 4). -/
def State.reset : State where
  phase := .running
  jacks := Vector.replicate 96 Jack.undefined
  sectors := Vector.replicate 24 Sector.undefined
  freeList := freshPool
  probes := Vector.replicate 12 Probe.fresh
  sampleTimer := true
  intervalTimer := true
  grants := Vector.replicate 96 none
  mode := .ready
  crawlEntry := none
  holds := []
  holdLow := false
  holdFilter := .undecided
  holdTimer := true
  aliveA := none
  aliveB := none
  permitA := false
  permitB := false
  active := Plan.factory
  staged := Plan.factory
  planSerial := 0
  planRejected := false
  ports := Vector.replicate 4 (PortRec.fresh .b57600)
  sounder := ⟨none, 0, Conditions.empty⟩
  counters := DeckCounters.zero
  retained := Retained.cleared
  store := Store.holding Configuration.factory
  storeBad := false
  retainLost := true
  storeOp := none
  afterAnswer := .nothing
  batteryLow := false
  resetLow := false
  pending := []

end Sys2Proof.Machine
end

