-- ==== Sys2Proof/Machine/Operands.lean ====
section
/-! DEFINITION. The fields of frames: reading and writing multi-byte fields, the codes of states, modes, holds and
requests, the plan's parameter table, and frames. -/

namespace Sys2Proof.Machine

/-! ### Reading fields of a payload (section 0.5.3: most significant byte first) -/

/-- The byte at an offset of a payload. -/
def u8At (payload : List Byte) (i : Nat) : Nat := (payload.getD i 0).toNat

/-- The 2-byte field at an offset. -/
def u16At (payload : List Byte) (i : Nat) : Nat := u8At payload i * 256 + u8At payload (i + 1)

/-- The 4-byte field at an offset. -/
def u32At (payload : List Byte) (i : Nat) : Nat := u16At payload i * 65536 + u16At payload (i + 2)

/-- The signed 4-byte field at an offset, in two's complement (R151). -/
def s32At (payload : List Byte) (i : Nat) : Int := (BitVec.ofNat 32 (u32At payload i)).toInt

/-- An index below a bound, if the number is one. -/
def index? (n k : Nat) : Option (Fin n) := if h : k < n then some ⟨k, h⟩ else none

/-! ### Writing fields of an answer -/

def be1 (x : Nat) : List Byte := [BitVec.ofNat 8 x]
def be2 (x : Nat) : List Byte := [BitVec.ofNat 8 (x / 256), BitVec.ofNat 8 x]
def be4 (x : Nat) : List Byte :=
  [BitVec.ofNat 8 (x / 16777216), BitVec.ofNat 8 (x / 65536), BitVec.ofNat 8 (x / 256), BitVec.ofNat 8 x]

/-- A signed 2-byte field (R151). -/
def be2i (x : Int) : List Byte := be2 (x % 65536).toNat

/-- A signed 4-byte field (R151). -/
def be4i (x : Int) : List Byte := be4 (x % 4294967296).toNat

/-- A 4-byte field that is sent with every byte 0xFF when absent (R151). -/
def be4? : Option Nat → List Byte
  | some x => be4 x
  | none => be4 0xFFFFFFFF

/-- The same for a signed value. -/
def be4i? : Option Int → List Byte
  | some x => be4i x
  | none => be4 0xFFFFFFFF

/-- A flag's weight in a summed field. -/
def flag (b : Bool) (weight : Nat) : Nat := if b then weight else 0

def boolByte (b : Bool) : List Byte := be1 (flag b 1)

/-! ### Codes -/

/-- The state codes of section 1.3. -/
def JackState.code : JackState → Nat
  | .undefined => 0
  | .unsurveyed => 1
  | .ready => 2
  | .granted => 3
  | .stalled => 4
  | .slip => 5
  | .rodEnd => 6
  | .excluded => 7

def Station.code : Station → Nat
  | .A => 0
  | .B => 1

def Station.ofCode? : Nat → Option Station
  | 0 => some .A
  | 1 => some .B
  | _ => none

/-- The mode codes of section 6.1. -/
def Mode.code : Mode → Nat
  | .survey => 0
  | .ready => 1
  | .rise => 2
  | .crawl => 3

/-- The probe state codes of R54. -/
def ProbeState.code : ProbeState → Nat
  | .new => 0
  | .good => 1
  | .fault => 2

/-- The source codes of R115. -/
def HoldSource.code : HoldSource → Nat
  | .line => 0
  | .stationA => 1
  | .stationB => 2
  | .feed => 3
  | .console => 4
  | .part => 5

def HoldSource.ofCode? : Nat → Option HoldSource
  | 0 => some .line
  | 1 => some .stationA
  | 2 => some .stationB
  | 3 => some .feed
  | 4 => some .console
  | 5 => some .part
  | _ => none

/-- Link sources (R114): every source but LINE and PART. -/
def HoldSource.isLink : HoldSource → Bool
  | .stationA | .stationB | .feed | .console => true
  | .line | .part => false

/-- The reason codes of R115. -/
def HoldReason.code : HoldReason → Nat
  | .operator => 1
  | .pump => 2
  | .feed => 3
  | .inspection => 4
  | .weather => 5
  | .other => 6
  | .line => 16
  | .exposed => 17
  | .ungrantedMove => 18
  | .crawlLimit => 19

/-- The external reasons, 1..6 (R115). -/
def HoldReason.external? : Nat → Option HoldReason
  | 1 => some .operator
  | 2 => some .pump
  | 3 => some .feed
  | 4 => some .inspection
  | 5 => some .weather
  | 6 => some .other
  | _ => none

def HoldReason.ofCode? : Nat → Option HoldReason
  | 16 => some .line
  | 17 => some .exposed
  | 18 => some .ungrantedMove
  | 19 => some .crawlLimit
  | n => HoldReason.external? n

def Qualifier.kindCode : Qualifier → Nat
  | .none => 0
  | .jack _ => 1
  | .sector _ => 2

/-- The index byte of a qualifier: 0xFF for none (R122). -/
def Qualifier.indexCode : Qualifier → Nat
  | .none => 0xFF
  | .jack j => j.val
  | .sector k => k.val

/-- The qualifier that a kind 0..2 and an index name; none when the index is out of its range (R117). -/
def Qualifier.ofCodes? (kind ix : Nat) : Option Qualifier :=
  match kind with
  | 0 => some .none
  | 1 => (index? 96 ix).map .jack
  | 2 => (index? 24 ix).map .sector
  | _ => Option.none

/-- The speed codes of R142. -/
def Speed.code : Speed → Nat
  | .b9600 => 0
  | .b19200 => 1
  | .b38400 => 2
  | .b57600 => 3
  | .b115200 => 4

def Speed.ofCode? : Nat → Option Speed
  | 0 => some .b9600
  | 1 => some .b19200
  | 2 => some .b38400
  | 3 => some .b57600
  | 4 => some .b115200
  | _ => none

/-- Priorities of section 9.1; 0 is no condition. -/
def Condition.priority : Condition → Nat
  | .held => 1
  | .level => 2
  | .lag => 3
  | .stall => 4
  | .probe => 5

/-- The summed code of a set of conditions (R158). -/
def Conditions.code (c : Conditions) : Nat :=
  flag c.held 1 + flag c.level 2 + flag c.lag 4 + flag c.stall 8 + flag c.probe 16

/-! ### Ports -/

end Sys2Proof.Machine

namespace Sys2Proof

open Machine (Station HoldSource)

def Port.number : Port → Nat
  | .stationA => 1
  | .stationB => 2
  | .feed => 3
  | .console => 4

def Port.ix : Port → Fin 4
  | .stationA => 0
  | .stationB => 1
  | .feed => 2
  | .console => 3

def Port.all : List Port := [.stationA, .stationB, .feed, .console]

def Port.ofNumber? : Nat → Option Port
  | 1 => some .stationA
  | 2 => some .stationB
  | 3 => some .feed
  | 4 => some .console
  | _ => none

/-- The station a port serves (section 0.3). -/
def Port.station? : Port → Option Station
  | .stationA => some .A
  | .stationB => some .B
  | .feed => none
  | .console => none

/-- The source a port's holds are placed under (section 6.5). -/
def Port.source : Port → HoldSource
  | .stationA => .stationA
  | .stationB => .stationB
  | .feed => .feed
  | .console => .console

end Sys2Proof

namespace Sys2Proof.Machine

/-! ### The plan parameters (section 7.1) -/

/-- A parameter of the plan by its number less one. -/
def Plan.get (p : Plan) (n : Param) : Int := p.values[n]

def Plan.set (p : Plan) (n : Param) (x : Int) : Plan := ⟨p.values.set n.val x n.isLt⟩

/-- The ranges of section 7.1, lowest and highest. -/
def Param.ranges : Vector (Int × Int) 25 :=
  #v[(50, 600), (20, 300), (100, 350), (10, 600), (5, 120), (1, 48), (1, 48), (6000, 15000), (1000, 6000),
    (250, 2000), (0, 1000), (-150, 0), (-100, 200), (50, 100), (5, 60), (500, 6000), (1, 30),
    (10000, 400000), (20000, 2000000), (10000, 400000), (20000, 2000000),
    (10000, 400000), (20000, 2000000), (10000, 400000), (20000, 2000000)]

def Param.lowest (n : Param) : Int := Param.ranges[n].1
def Param.highest (n : Param) : Int := Param.ranges[n].2

/-- The parameters by name. Every range but those of DATUM and FALLBACK is non-negative, so `toNat` keeps the value. -/
def Plan.tol (p : Plan) : Nat := (p.get 0).toNat
def Plan.lalm (p : Plan) : Nat := (p.get 1).toNat
def Plan.lnom (p : Plan) : Nat := (p.get 2).toNat
def Plan.cadence (p : Plan) : Nat := (p.get 3).toNat
def Plan.gto (p : Plan) : Nat := (p.get 4).toNat
def Plan.budget (p : Plan) : Station → Nat
  | .A => (p.get 5).toNat
  | .B => (p.get 6).toNat
def Plan.hf (p : Plan) : Nat := (p.get 7).toNat
def Plan.emb (p : Plan) : Nat := (p.get 8).toNat
def Plan.freeboard (p : Plan) : Nat := (p.get 9).toNat
def Plan.survlim (p : Plan) : Nat := (p.get 10).toNat
def Plan.datum (p : Plan) : Int := p.get 11
def Plan.fallback (p : Plan) : Int := p.get 12
def Plan.crawlStroke (p : Plan) : Nat := (p.get 13).toNat
def Plan.crawlInt (p : Plan) : Nat := (p.get 14).toNat
def Plan.crawlLim (p : Plan) : Nat := (p.get 15).toNat
def Plan.aliveTo (p : Plan) : Nat := (p.get 16).toNat

/-- RELk of a mix class. -/
def Plan.rel (p : Plan) : Fin 4 → Nat
  | 0 => (p.get 17).toNat
  | 1 => (p.get 19).toNat
  | 2 => (p.get 21).toNat
  | 3 => (p.get 23).toNat

/-- STKk of a mix class. -/
def Plan.stk (p : Plan) : Fin 4 → Nat
  | 0 => (p.get 18).toNat
  | 1 => (p.get 20).toNat
  | 2 => (p.get 22).toNat
  | 3 => (p.get 24).toNat

/-- How many parameters differ between two plans (R131, R133, R140). -/
def Plan.differences (p q : Plan) : Nat := ((List.finRange 25).filter fun n => p.get n != q.get n).length

/-- The first combined check of R132 that a plan fails, 1..7, or 0. -/
def Plan.firstFailed (p : Plan) : Nat :=
  if ¬ p.lnom ≤ p.tol then 1
  else if ¬ p.crawlStroke ≤ p.lnom then 2
  else if ¬ ((p.emb : Int) + p.freeboard ≤ (p.hf : Int) - 2000) then 3
  else if ¬ p.stk 0 ≥ p.rel 0 + 10000 then 4
  else if ¬ p.stk 1 ≥ p.rel 1 + 10000 then 5
  else if ¬ p.stk 2 ≥ p.rel 2 + 10000 then 6
  else if ¬ p.stk 3 ≥ p.rel 3 + 10000 then 7
  else 0

/-! ### The spread rank (R3) -/

/-- The 7-bit bit-reversal of a jack index. -/
def spreadRank (j : JackIx) : Nat := (BitVec.ofNat 7 j.val).reverse.toNat

/-! ### The check (R144) -/

/-- The check's two bytes, high byte first. -/
def crcBytes (bytes : List Byte) : List Byte := be2 (crc16 bytes).toNat

/-! ### Frames (R143, R150) -/

/-- A request frame from lead to last payload byte. -/
def requestBody (code : Byte) (item : Item) (payload : List Byte) : List Byte :=
  [0xC5, code] ++ be2 item.toNat ++ be1 payload.length ++ payload

/-- A whole request frame. -/
def requestFrame (code : Byte) (item : Item) (payload : List Byte) : List Byte :=
  requestBody code item payload ++ crcBytes (requestBody code item payload)

/-- The answer code of R150. -/
def AnswerKind.code : AnswerKind → Nat
  | .accept => 0x0A
  | .refuse => 0x0E

/-- An answer frame from lead to last payload byte. -/
def Answer.body (a : Answer) : List Byte :=
  [0xC5] ++ be1 a.kind.code ++ [a.request] ++ be1 a.payload.length ++ a.payload

/-- The bytes an answer puts on the line (R150). -/
def Answer.frame (a : Answer) : List Byte := a.body ++ crcBytes a.body

end Sys2Proof.Machine
end

