-- ==== Sys2Proof/Machine/Flags.lean ====
section
/-! DEFINITION. The derived values: the Rise Evaluator's heights, ceilings, rooms and sector flags (chapter 4), the
sounder conditions (section 9.1), the PERMIT conditions (R127) and the reported probe average (R52). -/

namespace Sys2Proof.Machine

/-! ### Records by index -/

def State.jack (s : State) (j : JackIx) : Jack := s.jacks[j]
def State.sector (s : State) (k : SectorIx) : Sector := s.sectors[k]
def State.probe (s : State) (n : ProbeIx) : Probe := s.probes[n]
def State.grant? (s : State) (j : JackIx) : Option Grant := s.grants[j]
def State.port (s : State) (p : Port) : PortRec := s.ports[p.ix]

/-- The deck clock is the battery seconds counter (R166). -/
def State.clock (s : State) : Nat := s.retained.counter

/-- A jack is defined exactly when its state is not UNDEFINED (R4). -/
def Jack.defined (j : Jack) : Bool := j.live.state != .undefined

/-- The jack states of the level-bearing set (R65). -/
def JackState.levelBearing : JackState → Bool
  | .ready | .granted | .stalled | .slip | .rodEnd => true
  | .undefined | .unsurveyed | .excluded => false

def Jack.levelBearing (j : Jack) : Bool := j.live.state.levelBearing

/-- "The rod is short" (R4). -/
def rodShort (plan : Plan) (rod : Nat) : Bool := rod < plan.lnom + 500

/-! ### Deck and sector heights (R66 to R68) -/

/-- The heights of the level-bearing set. -/
def State.levelHeights (s : State) : List Nat :=
  s.jacks.toList.filterMap fun j => if j.levelBearing then some j.live.height else none

def State.hMin (s : State) : Option Nat := s.levelHeights.min?
def State.hMax (s : State) : Option Nat := s.levelHeights.max?

def State.spread (s : State) : Option Nat :=
  match s.hMin, s.hMax with
  | some lo, some hi => some (hi - lo)
  | _, _ => none

/-- The LEVEL alert (R67). -/
def State.levelAlert (s : State) : Bool :=
  match s.spread with
  | some d => s.active.tol + s.active.lalm < d
  | none => false

/-- The heights of a sector's level-bearing jacks. -/
def State.sectorHeights (s : State) (k : SectorIx) : List Nat :=
  s.jacks.toList.filterMap fun j => if j.levelBearing && j.sector == k then some j.live.height else none

/-- D_low(s) and D_high(s) (R68); undefined for a sector that is not defined. -/
def State.dLow (s : State) (k : SectorIx) : Option Nat :=
  if (s.sector k).defined then (s.sectorHeights k).min? else none

def State.dHigh (s : State) (k : SectorIx) : Option Nat :=
  if (s.sector k).defined then (s.sectorHeights k).max? else none

/-! ### Fill, release elevation and ceiling (R27, R69, R70) -/

/-- The fill elevation over a hardened top and a chain (R27). -/
def fillOver (hHard : Nat) (chain : List Layer) : Nat :=
  match chain.getLast? with
  | some l => l.top
  | none => hHard

def Sector.fill (k : Sector) : Nat := fillOver k.live.hHard k.live.chain

/-- The walk of R69. -/
def releaseWalk (e : Nat) : List Layer → Nat
  | [] => e
  | l :: rest => if l.released then releaseWalk l.top rest else e

def Sector.eRel (k : Sector) : Nat := releaseWalk k.live.hHard k.live.chain

/-- Defined and based. -/
def Sector.inSlip (k : Sector) : Bool := k.defined && k.live.based

def concreteTerm (plan : Plan) (k : Sector) : Int := (k.eRel : Int) + plan.hf
def fillTerm (plan : Plan) (k : Sector) : Int := (k.fill : Int) + plan.hf - plan.emb

/-- D_max(s) (R70). -/
def State.dMax (s : State) (k : SectorIx) : Option Int :=
  if (s.sector k).inSlip then some (min (concreteTerm s.active (s.sector k)) (fillTerm s.active (s.sector k)))
  else none

/-- Fill-starved (R70). -/
def State.fillStarved (s : State) (k : SectorIx) : Bool :=
  (s.sector k).inSlip && decide (fillTerm s.active (s.sector k) < concreteTerm s.active (s.sector k))

/-! ### Room (R71 to R73) -/

/-- The terms that limit a jack. -/
inductive Limit where
  | ceiling
  | level
  | crawl
deriving DecidableEq, Repr

/-- The room of a jack and its limiting term: the smallest term, the first in the order CEILING, LEVEL, CRAWL among
equals (R72, R73). Undefined where R72 leaves it undefined. -/
def State.room (s : State) (hMin : Option Nat) (j : Jack) : Option (Int × Limit) :=
  if j.live.state = .undefined ∨ j.live.state = .unsurveyed then none
  else
    match s.dMax j.sector, hMin with
    | some d, some m =>
      let h : Int := j.live.height
      let c : Int := d - h
      let l : Int := (m : Int) + s.active.tol - h
      let first : Int × Limit := if l < c then (l, .level) else (c, .ceiling)
      match s.mode, s.crawlEntry with
      | .crawl, some e =>
        let w : Int := (e : Int) + s.active.crawlLim - h
        some (if w < first.1 then (w, .crawl) else first)
      | _, _ => some first
    | _, _ => none

/-! ### Sector flags (R74 to R78) -/

/-- OVERFILL (R74). -/
def State.overfill (s : State) (k : SectorIx) : Bool :=
  match s.dLow k with
  | some d => (s.sector k).inSlip && decide ((d : Int) - s.active.freeboard < (s.sector k).fill)
  | none => false

/-- LAG (R75). -/
def State.lag (s : State) (k : SectorIx) : Bool :=
  match s.dLow k with
  | some d =>
    (s.sector k).inSlip &&
      (s.sector k).live.chain.any fun l => l.stuck && decide ((d : Int) - s.active.hf < l.top)
  | none => false

/-- EXPOSED (R76). -/
def State.exposed (s : State) (k : SectorIx) : Bool :=
  match s.dHigh k with
  | some d =>
    (s.sector k).inSlip &&
      (s.sector k).live.chain.any fun l => !l.released && decide ((l.base : Int) < (d : Int) - s.active.hf)
  | none => false

/-- A considered sector: defined, based, with a level-bearing jack (R41, R78). -/
def State.considered (s : State) (k : SectorIx) : Bool := (s.sector k).inSlip && (s.dLow k).isSome

def State.consideredSectors (s : State) : List SectorIx := (List.finRange 24).filter s.considered

/-- The lowest sector that is EXPOSED. -/
def State.firstExposed (s : State) : Option SectorIx := (List.finRange 24).find? s.exposed

def State.anyExposed (s : State) : Bool := (List.finRange 24).any s.exposed
def State.anyLag (s : State) : Bool := (List.finRange 24).any s.lag
def State.anyOverfill (s : State) : Bool := (List.finRange 24).any s.overfill

/-- The sector flags byte of SECTOR READ and LAYER PLACED (R19, R153). -/
def State.sectorFlags (s : State) (k : SectorIx) : Nat :=
  flag (s.overfill k) 1 + flag (s.lag k) 2 + flag (s.exposed k) 4 + flag (s.fillStarved k) 8

/-- The lowest D_max of the considered sectors and the lowest index that has it (R78). -/
def State.lowestDMax (s : State) : Option (Int × SectorIx) :=
  s.consideredSectors.foldl
    (fun best k =>
      match s.dMax k, best with
      | some d, some (b, i) => if d < b then some (d, k) else some (b, i)
      | some d, none => some (d, k)
      | none, b => b)
    none

/-- How many considered sectors are fill-starved (R41, R78). -/
def State.starvedCount (s : State) : Nat := (s.consideredSectors.filter s.fillStarved).length

/-! ### The deck as a whole -/

/-- Incomplete: some defined jack UNSURVEYED or some defined sector UNBASED (section 6.1). -/
def State.incomplete (s : State) : Bool :=
  s.jacks.toList.any (fun j => j.live.state == .unsurveyed) ||
    s.sectors.toList.any (fun k => k.defined && !k.live.based)

/-- The crawl limit is reached (R112). -/
def State.crawlReached (s : State) : Bool :=
  match s.mode, s.hMin, s.crawlEntry with
  | .crawl, some m, some e => decide ((e : Int) + s.active.crawlLim - s.active.crawlStroke < m)
  | _, _, _ => false

/-- The live grants of a station (R81). -/
def State.liveGrants (s : State) (st : Station) : Nat :=
  (s.grants.toList.filter fun g => g.any fun r => r.station == st).length

/-- Some grant is live. -/
def State.anyGrant (s : State) : Bool := s.grants.toList.any Option.isSome

def State.linkHolds (s : State) : Nat := (s.holds.filter fun h => h.source.isLink).length

def State.hasReason (s : State) (r : HoldReason) : Bool := s.holds.any fun h => h.reason == r

def State.definedJacks (s : State) : Nat := (s.jacks.toList.filter Jack.defined).length
def State.definedSectors (s : State) : Nat := (s.sectors.toList.filter Sector.defined).length

/-! ### Ports and PERMIT (R126, R127) -/

def State.alive (s : State) : Station → Bool
  | .A => s.aliveA.isSome
  | .B => s.aliveB.isSome

/-- The deck rises or crawls. -/
def Mode.moving : Mode → Bool
  | .rise | .crawl => true
  | .survey | .ready => false

/-- The three conditions of a PERMIT contact (R127), while the module runs. -/
def State.permitOn (s : State) (st : Station) : Bool :=
  decide (s.phase = .running) && s.mode.moving && s.holds.isEmpty && s.alive st

/-! ### Probes (R52, R53) -/

/-- The sum of the four window slots. -/
def Probe.sum (p : Probe) : Int := p.window[0] + p.window[1] + p.window[2] + p.window[3]

/-- The reported average (R52); `/` on a positive divisor rounds toward minus infinity. -/
def Probe.average (p : Probe) : Int :=
  match p.state with
  | .good => p.sum / 4
  | .new | .fault => -32768

/-! ### Sounder conditions (section 9.1) -/

def State.anyStall (s : State) : Bool :=
  s.jacks.toList.any fun j => j.live.state == .stalled || j.live.state == .slip

def State.probeCondition (s : State) : Bool := s.probes.toList.any fun p => p.state == .fault

/-- The five conditions as they stand. -/
def State.conditions (s : State) : Conditions where
  held := !s.holds.isEmpty
  level := s.levelAlert
  lag := s.anyLag
  stall := s.anyStall
  probe := s.probeCondition

/-- The mute set less every condition that is false (R159). -/
def Conditions.inter (a b : Conditions) : Conditions where
  held := a.held && b.held
  level := a.level && b.level
  lag := a.lag && b.lag
  stall := a.stall && b.stall
  probe := a.probe && b.probe

def Conditions.union (a b : Conditions) : Conditions where
  held := a.held || b.held
  level := a.level || b.level
  lag := a.lag || b.lag
  stall := a.stall || b.stall
  probe := a.probe || b.probe

/-- The highest-priority condition that is true and not muted (R156). -/
def Conditions.select (active muted : Conditions) : Option Condition :=
  if active.held && !muted.held then some .held
  else if active.level && !muted.level then some .level
  else if active.lag && !muted.lag then some .lag
  else if active.stall && !muted.stall then some .stall
  else if active.probe && !muted.probe then some .probe
  else none

/-- A stretch of a pattern: how many ms, and the tone's divisor N, or none for silence (R157). -/
abbrev Segment := Nat × Option Nat

/-- The patterns of R157, each tone by its divisor N. -/
def Condition.pattern : Condition → List Segment
  | .held => [(500, some 155), (500, some 207)]
  | .level => [(200, some 124), (800, none)]
  | .lag => [(1000, some 249), (4000, none)]
  | .stall => [(150, some 178), (150, none), (150, some 178), (9550, none)]
  | .probe => [(300, some 312), (29700, none)]

def Condition.cycleMs (c : Condition) : Nat := (c.pattern.map Prod.fst).sum

/-- The tone at a position of a pattern. -/
def segmentAt : List Segment → Nat → Option Nat
  | [], _ => none
  | (ms, tone) :: rest, t => if t < ms then tone else segmentAt rest (t - ms)

/-- The divisor N of the tone on the SOUNDER output, or none while it is silent; the tone is 125,000 ÷ (N + 1) Hz. -/
def Sounder.tone (o : Sounder) : Option Nat :=
  match o.playing with
  | some c => segmentAt c.pattern o.positionMs
  | none => none

/-! ### Store state (R155, R167) -/

def State.storeState (s : State) : Nat :=
  if s.storeOp.isSome then 2 else flag s.storeBad 1

end Sys2Proof.Machine
end

