-- ==== Sys2Proof/Machine/Ops.lean ====
section
/-! DEFINITION. The named operations over the state that the commands share: record updates, the hold set's own
placements, retirement and maturity delivery, the mode's automatic passage, what follows every event (outputs and
retained memory), and the service of a request frame. -/

namespace Sys2Proof.Machine

/-! ### Saturation (section 0.5.3) -/

/-- A 16-bit saturating count. -/
def sat16 (x : Nat) : Nat := min x 65535

/-- A 32-bit saturating count (R161). -/
def sat32 (x : Nat) : Nat := min x 4294967295

/-! ### Record updates -/

def State.setJack (s : State) (j : JackIx) (x : Jack) : State := { s with jacks := s.jacks.set j.val x j.isLt }

/-- Replaces the live fields of a jack. -/
def State.setLive (s : State) (j : JackIx) (x : JackLive) : State := s.setJack j { s.jack j with live := x }

def State.setSector (s : State) (k : SectorIx) (x : Sector) : State :=
  { s with sectors := s.sectors.set k.val x k.isLt }

def State.setSectorLive (s : State) (k : SectorIx) (x : SectorLive) : State :=
  s.setSector k { s.sector k with live := x }

def State.setGrant (s : State) (j : JackIx) (g : Option Grant) : State :=
  { s with grants := s.grants.set j.val g j.isLt }

def State.setPort (s : State) (p : Port) (x : PortRec) : State :=
  { s with ports := s.ports.set p.ix.val x p.ix.isLt }

def State.setReceiver (s : State) (p : Port) (r : Receiver) : State := s.setPort p { s.port p with receiver := r }

def State.countPort (s : State) (p : Port) (f : PortCounters → PortCounters) : State :=
  s.setPort p { s.port p with counters := f (s.port p).counters }

def State.count (s : State) (f : DeckCounters → DeckCounters) : State := { s with counters := f s.counters }

/-- Starts or expires a station port's alive timer (R126). -/
def State.setAlive (s : State) (st : Station) (t : Option Nat) : State :=
  match st with
  | .A => { s with aliveA := t }
  | .B => { s with aliveB := t }

/-! ### What follows every event -/

/-- The selection of R156 and the mute set of R159 under the conditions as they stand: a pattern that stays selected
runs on, a newly selected one starts its cycle. -/
def Sounder.reselect (o : Sounder) (powered : Bool) (active : Conditions) : Sounder :=
  let muted := o.muted.inter active
  let now := if powered then active.select muted else none
  { playing := now, positionMs := if now = o.playing then o.positionMs else 0, muted := muted }

/-- Drives the PERMIT contacts (R127) and the sounder (R156, R159) from the state as an event leaves it. -/
def State.settle (s : State) : State :=
  { s with
    permitA := s.permitOn .A
    permitB := s.permitOn .B
    sounder := s.sounder.reselect (s.phase = .running) s.conditions }

/-- The live deck as retained memory keeps it: the LINE entry is left out, and the stamp, the counter and the
run mark are those held (R165). -/
def State.liveCopy (s : State) : RetainedCopy where
  jacks := s.jacks.map Jack.live
  sectors := s.sectors.map fun k => ⟨k.defined, k.live⟩
  freeList := s.freeList
  holds := s.holds.filter fun h => h.reason != .line
  crawlEntry := s.crawlEntry
  planSerial := s.planSerial
  counters := s.counters
  stamp := s.retained.stamp
  counter := s.retained.counter
  runMark := s.retained.runMark

/-- Writes the live deck to retained memory with a new check, as one update (R165). -/
def State.rewrite (s : State) : State :=
  { s with retained := ⟨s.liveCopy, s.liveCopy.formed⟩ }

/-- Lets retained memory follow an event: one that changes its contents writes them with a new check in the same update,
and one that changes none of them writes nothing, so that the check held stays (R165). -/
def State.commit (s : State) : State :=
  { s with
    retained := {
      toRetainedCopy := s.liveCopy
      check := if s.liveCopy = s.retained.toRetainedCopy then s.retained.check else s.liveCopy.formed } }

/-- An event taken while the module runs; while it is off, in reset or starting up no event is taken (R165, R170). -/
def whenRunning (s : State) (f : State → State) : Host.Outcome State Fault Refusal :=
  .next (if s.phase = .running then (f s).settle else s)

/-! ### The hold set (section 6.4) -/

/-- Appends an entry with the current deck second (R114). -/
def State.pushHold (s : State) (source : HoldSource) (reason : HoldReason) (q : Qualifier) : State :=
  { s with holds := s.holds ++ [⟨source, reason, q, s.clock⟩] }

/-- Places a part entry unless one of its reason is present (R121). -/
def State.placePart (s : State) (source : HoldSource) (reason : HoldReason) (q : Qualifier) : State :=
  if s.hasReason reason then s else s.pushHold source reason q

/-- Places the EXPOSED hold when a sector is EXPOSED and none is present (R77). -/
def State.placeExposed (s : State) : State :=
  match s.firstExposed with
  | some k => s.placePart .part .exposed (.sector k)
  | none => s

/-- Places the CRAWL_LIMIT hold when the limit is reached and none is present (R112). -/
def State.placeCrawlLimit (s : State) : State :=
  if s.crawlReached then s.placePart .part .crawlLimit .none else s

/-- h_min is higher than it was (R112). From undefined to a value is no rise (log entry 12). -/
def raised : Option Nat → Option Nat → Bool
  | some a, some b => a < b
  | _, _ => false

/-- The crawl limit test of an event that may have raised h_min (R112; log entry 12). -/
def State.crawlAfter (s : State) (before : Option Nat) : State :=
  if raised before s.hMin then s.placeCrawlLimit else s

/-- Takes every entry of a reason out of the set. -/
def State.dropReason (s : State) (r : HoldReason) : State :=
  { s with holds := s.holds.filter fun h => h.reason != r }

/-! ### The deck mode (R106, R107) -/

/-- SURVEY for an incomplete deck, READY for a complete one. -/
def State.deriveMode (s : State) : State := { s with mode := if s.incomplete then .survey else .ready }

/-- The automatic passage between SURVEY and READY; RISE and CRAWL are left alone. -/
def State.passMode (s : State) : State := if s.mode.moving then s else s.deriveMode

/-! ### Layers: flags, retirement, maturity (R26, R36, R59) -/

/-- The flags of a layer against the thresholds of its class (R26). -/
def Layer.refresh (plan : Plan) (l : Layer) : Layer :=
  { l with released := plan.rel l.mixClass ≤ l.maturity, stuck := plan.stk l.mixClass ≤ l.maturity }

/-- A refresh takes the layer from clear to released. -/
def Layer.becomesReleased (plan : Plan) (l : Layer) : Bool := !l.released && (l.refresh plan).released

/-- Slots go onto the free list in the order given, the last one on top (R23). -/
def pushSlots (free : List Slot) (slots : List Slot) : List Slot := slots.reverse ++ free

/-- What R36 retires from the bottom of a chain. -/
def retirable (limit : Int) (l : Layer) : Bool := l.released && decide ((l.top : Int) ≤ limit)

/-- The run of R36 in one sector. -/
def State.retireSector (s : State) (k : SectorIx) : State :=
  match s.dLow k with
  | none => s
  | some d =>
    let v := (s.sector k).live
    if (s.sector k).inSlip then
      let limit : Int := (d : Int) - s.active.hf
      let gone := v.chain.takeWhile (retirable limit)
      let kept := v.chain.dropWhile (retirable limit)
      ({ s with freeList := pushSlots s.freeList (gone.map Layer.slot) }.setSectorLive k
        { v with hHard := fillOver v.hHard gone, chain := kept, retired := sat16 (v.retired + gone.length) }).count
        fun c => { c with layersRetired := sat32 (c.layersRetired + gone.length) }
    else s

/-- The run of R36 in each of some sectors, one after another (R38: the lists are in ascending index). -/
def State.retireSectors (s : State) (ks : List SectorIx) : State := ks.foldl State.retireSector s

/-- One or two sectors in ascending index, each once (R9, R38). -/
def sectorPair (a b : SectorIx) : List SectorIx := if a < b then [a, b] else if b < a then [b, a] else [a]

/-- The sectors with a layer that the present plan newly releases. -/
def State.newlyReleased (s : State) : List SectorIx :=
  (List.finRange 24).filter fun k => (s.sector k).live.chain.any (Layer.becomesReleased s.active)

/-- The refresh of every layer of every chain (R26). -/
def State.refreshAll (s : State) : State :=
  { s with
    sectors := s.sectors.map fun k => { k with live := { k.live with chain := k.live.chain.map (Layer.refresh s.active) } } }

/-- The increment from a temperature (R58). -/
def increment (plan : Plan) (t : Int) : Nat := (min (max (t - plan.datum) 0) 900).toNat

/-- A layer's maturity and age after a delivery (R59). -/
def Layer.mature (inc : Nat) (l : Layer) : Layer :=
  { l with maturity := min (l.maturity + inc) 4000000, age := sat16 (l.age + 1) }

/-- A delivery to one sector: every layer matures and is refreshed, and the sector is re-evaluated for retirement if
a layer became released (R59). -/
def State.deliver (s : State) (k : SectorIx) (inc : Nat) : State :=
  let v := (s.sector k).live
  let aged := v.chain.map (Layer.mature inc)
  let s' := s.setSectorLive k { v with chain := aged.map (Layer.refresh s.active) }
  if aged.any (Layer.becomesReleased s.active) then s'.retireSector k else s'

/-- A served sector: defined, with layers (R56). -/
def Sector.served (k : Sector) : Bool := k.defined && !k.live.chain.isEmpty

/-- One interval: every served sector in ascending index, each complete before the next (R56, R62). -/
def State.interval (s : State) (inc : State → SectorIx → Nat) : State :=
  (List.finRange 24).foldl (fun s k => if (s.sector k).served then s.deliver k (inc s k) else s) s

/-! ### Requests (sections 8.2 to 8.5) -/

/-- The requests of section 8.4. -/
inductive Request where
  | deckSummary | jackRead | sectorRead | layerRead | probeRead | planRead | identity
  | strokeDemand | strokeReport | strokeCancel | stationView
  | layerPlaced | feedAdvice | layerWithdraw
  | holdPlace | holdRelease | holdList
  | modeSet | survey | rodExtend | jackSet | jackDefine | sectorDefine | sectorBase
  | planStage | planApply | silence | configSave | configLoad | configFactory
  | clearDeck | restart | diagnose | counters | portSet
deriving DecidableEq, Repr

/-- The request codes of section 8.4. -/
def Request.code : Request → Byte
  | .deckSummary => 0x10
  | .jackRead => 0x11
  | .sectorRead => 0x12
  | .layerRead => 0x13
  | .probeRead => 0x14
  | .planRead => 0x15
  | .identity => 0x16
  | .strokeDemand => 0x20
  | .strokeReport => 0x21
  | .strokeCancel => 0x22
  | .stationView => 0x23
  | .layerPlaced => 0x30
  | .feedAdvice => 0x31
  | .layerWithdraw => 0x32
  | .holdPlace => 0x40
  | .holdRelease => 0x41
  | .holdList => 0x42
  | .modeSet => 0x50
  | .survey => 0x51
  | .rodExtend => 0x52
  | .jackSet => 0x53
  | .jackDefine => 0x54
  | .sectorDefine => 0x55
  | .sectorBase => 0x56
  | .planStage => 0x57
  | .planApply => 0x58
  | .silence => 0x59
  | .configSave => 0x5A
  | .configLoad => 0x5B
  | .configFactory => 0x5C
  | .clearDeck => 0x5D
  | .restart => 0x5E
  | .diagnose => 0x5F
  | .counters => 0x60
  | .portSet => 0x61

def Request.all : List Request :=
  [.deckSummary, .jackRead, .sectorRead, .layerRead, .probeRead, .planRead, .identity,
   .strokeDemand, .strokeReport, .strokeCancel, .stationView, .layerPlaced, .feedAdvice, .layerWithdraw,
   .holdPlace, .holdRelease, .holdList, .modeSet, .survey, .rodExtend, .jackSet, .jackDefine, .sectorDefine,
   .sectorBase, .planStage, .planApply, .silence, .configSave, .configLoad, .configFactory,
   .clearDeck, .restart, .diagnose, .counters, .portSet]

def Request.ofCode? (code : Byte) : Option Request := Request.all.find? fun r => r.code == code

/-- The ports that may send a request (section 8.4). -/
def Request.allowed (r : Request) (p : Port) : Bool :=
  match r with
  | .deckSummary | .jackRead | .sectorRead | .layerRead | .probeRead | .planRead | .identity => true
  | .holdPlace | .holdRelease | .holdList => true
  | .strokeDemand | .strokeReport | .strokeCancel | .stationView => p == .stationA || p == .stationB
  | .layerPlaced | .feedAdvice | .layerWithdraw => p == .feed
  | .modeSet | .survey | .rodExtend | .jackSet | .jackDefine | .sectorDefine | .sectorBase => p == .console
  | .planStage | .planApply | .silence | .configSave | .configLoad | .configFactory => p == .console
  | .clearDeck | .restart | .diagnose | .counters | .portSet => p == .console

/-- The payload lengths of section 8.4. -/
def Request.lengthOk (r : Request) (n : Nat) : Bool :=
  match r with
  | .deckSummary | .jackRead | .sectorRead | .probeRead | .planRead | .identity => n == 0
  | .feedAdvice | .layerWithdraw | .planApply | .silence => n == 0
  | .configSave | .configLoad | .configFactory | .clearDeck | .restart | .diagnose => n == 0
  | .layerRead | .stationView | .holdList | .modeSet | .jackSet | .counters | .portSet => n == 1
  | .strokeDemand | .rodExtend | .sectorDefine => n == 2
  | .layerPlaced | .holdPlace => n == 3
  | .holdRelease | .jackDefine | .sectorBase | .planStage => n == 4
  | .survey => n == 5
  | .strokeReport => 3 ≤ n && n ≤ 48 && n % 3 == 0
  | .strokeCancel => 1 ≤ n && n ≤ 16

/-- The refusal codes of R151. -/
inductive RefuseCode where
  | check
  | unknown
  | role
  | item
  | range
  | mode
  | busy
  | full
  | length
  | state
deriving DecidableEq, Repr

def RefuseCode.code : RefuseCode → Nat
  | .check => 0x01
  | .unknown => 0x02
  | .role => 0x03
  | .item => 0x04
  | .range => 0x05
  | .mode => 0x06
  | .busy => 0x07
  | .full => 0x08
  | .length => 0x09
  | .state => 0x0A

/-- What a serving rule says to its port: an answer, or that a store request goes on in SERVING. -/
inductive Reply where
  | accept (payload : List Byte)
  | refuse (code : RefuseCode) (detail : Nat)
  | serve
deriving DecidableEq, Repr

/-- A refused answer's payload: the refusal code and a 2-byte detail (R151). -/
def refusal (code : RefuseCode) (detail : Nat) : List Byte := be1 code.code ++ be2 detail

/-- The port answers, or enters SERVING; an answered refusal counts in REFUSED (R154). -/
def State.respond (s : State) (p : Port) (code : Byte) (r : Reply) : State :=
  match r with
  | .accept payload => s.setReceiver p (.answering ⟨.accept, code, payload⟩)
  | .refuse c d =>
    (s.countPort p fun k => { k with refused := sat16 (k.refused + 1) }).setReceiver p
      (.answering ⟨.refuse, code, refusal c d⟩)
  | .serve => s.setReceiver p (.serving [])

/-- A good frame is counted and keeps its station port alive (R144, R126). -/
def State.goodFrame (s : State) (p : Port) : State :=
  let s' := s.countPort p fun k => { k with good := sat16 (k.good + 1) }
  match p.station? with
  | some st => s'.setAlive st (some s'.active.aliveTo)
  | none => s'

/-- A payload length byte above 56: the frame is discarded and counted in LENGTH (R147, R149). -/
def State.lengthDiscard (s : State) (p : Port) : State :=
  let s' := s.countPort p fun k => { k with length := sat16 (k.length + 1) }
  match (s.port p).receiver with
  | .serving _ => s'.setReceiver p (.serving [])
  | .answering _ => s
  | .listening | .collecting _ => s'.setReceiver p .listening

/-- A frame that completes in SERVING is discarded and counted in OVERRUN (R149). -/
def State.overrunDiscard (s : State) (p : Port) : State :=
  (s.countPort p fun k => { k with overrun := sat16 (k.overrun + 1) }).setReceiver p (.serving [])

/-- What a frame with `n` payload bytes meets when it completes on a port: lost in ANSWERING (R145), discarded in
SERVING (R149), discarded for its length (R147), or judged by `judge` with the frame taken out of the receiver. -/
def State.onFrame (s : State) (p : Port) (n : Nat) (judge : State → State) : State :=
  match (s.port p).receiver with
  | .answering _ => s
  | .serving _ => if 56 < n then s.lengthDiscard p else s.overrunDiscard p
  | .listening | .collecting _ => if 56 < n then s.lengthDiscard p else judge (s.setReceiver p .listening)

/-- A good frame with a known code is taken for service: the role and length tests of R148, then the serving rule. -/
def State.take (s : State) (r : Request) (p : Port) (n : Nat) (serve : State → State × Reply) : State :=
  let s1 := s.goodFrame p
  if !r.allowed p then s1.respond p r.code (.refuse .role p.number)
  else if !r.lengthOk n then s1.respond p r.code (.refuse .length n)
  else
    match serve s1 with
    | (s2, reply) => s2.respond p r.code reply

/-- The command of a request row: a frame with a good check completes on the port. -/
def request (r : Request) (p : Port) (n : Nat) (serve : State → State × Reply) (s : State) :
    Host.Outcome State Fault Refusal :=
  whenRunning s fun s => s.onFrame p n fun s => s.take r p n serve

end Sys2Proof.Machine
end

