-- ==== Sys2Proof/Machine/Jacks.lean ====
section
/-! DEFINITION. The console's jack requests and JACK READ (sections 1.4 to 1.8). -/

namespace Sys2Proof.Machine

/-- The defined jack an item names (order 1 of the test tables). -/
def State.definedJack? (s : State) (item : Item) : Option JackIx :=
  (index? 96 item.toNat).filter fun j => (s.jack j).defined

/-- READY, or ROD_END if the rod is short (R4). -/
def readyOrRodEnd (plan : Plan) (rod : Nat) : JackState := if rodShort plan rod then .rodEnd else .ready

/-- The mode allows definitions: SURVEY or READY (sections 1.4, 1.10). -/
def Mode.settingUp (m : Mode) : Bool := !m.moving

/-! ### JACK DEFINE (R5, R6) -/

/-- The first bad field of a DEFINE payload, 2..4, or the definition it gives (section 1.4). -/
def parseDefine (station group sector : Nat) : Nat ⊕ (Station × Fin 8 × SectorIx) :=
  match Station.ofCode? station, index? 8 group, index? 24 sector with
  | none, _, _ => .inl 2
  | some _, none, _ => .inl 3
  | some _, some _, none => .inl 4
  | some a, some b, some c => .inr (a, b, c)

/-- The record a DEFINE leaves: a new jack takes its defaults, a defined one keeps its live fields (R5). -/
def Jack.define (j : Jack) (st : Station) (g : Fin 8) (k : SectorIx) : Jack where
  station := st
  group := g
  sector := k
  live := if j.defined then j.live else JackLive.fresh

/-- The sectors R9 re-evaluates when a level-bearing jack goes from one sector to another. -/
def movedSectors (old new : Jack) : List SectorIx :=
  if old.levelBearing && old.sector != new.sector then sectorPair old.sector new.sector else []

/-- An accepted DEFINE (R5, R9, R77, R107). -/
def State.defineJack (s : State) (j : JackIx) (st : Station) (g : Fin 8) (k : SectorIx) : State :=
  let new := (s.jack j).define st g k
  (((s.setJack j new).retireSectors (movedSectors (s.jack j) new)).placeExposed.passMode).commit

def serveJackDefine (item : Item) (payload : List Byte) (s : State) : State × Reply :=
  match index? 96 item.toNat with
  | none => (s, .refuse .item item.toNat)
  | some j =>
    match parseDefine (u8At payload 1) (u8At payload 2) (u8At payload 3) with
    | .inl field => (s, .refuse .range field)
    | .inr (st, g, k) =>
      if !s.mode.settingUp then (s, .refuse .mode 0)
      else if (s.jack j).live.state = .granted then (s, .refuse .busy 0)
      else if !(s.sector k).defined then (s, .refuse .item (256 + k.val))
      else
        let t := s.defineJack j st g k
        (t, .accept (be1 (t.jack j).live.state.code))

/-- An accepted UNDEFINE (R6, R9, R107). R6 leaves the deck counters unchanged, and R36 counts the retirements that R9 runs
here; the model counts them (log entry 28). -/
def State.undefineJack (s : State) (j : JackIx) : State :=
  let ks := if (s.jack j).levelBearing then [(s.jack j).sector] else []
  (((s.setJack j Jack.undefined).retireSectors ks).passMode).commit

def serveJackUndefine (item : Item) (s : State) : State × Reply :=
  match index? 96 item.toNat with
  | none => (s, .refuse .item item.toNat)
  | some j =>
    if !s.mode.settingUp then (s, .refuse .mode 0)
    else if (s.jack j).live.state = .granted then (s, .refuse .busy 0)
    else (s.undefineJack j, .accept (be1 0))

/-- JACK DEFINE by its action byte (section 1.4). -/
def serveJackDefineAny (item : Item) (payload : List Byte) (s : State) : State × Reply :=
  match u8At payload 0 with
  | 1 => serveJackDefine item payload s
  | 2 => serveJackUndefine item s
  | _ => if 96 ≤ item.toNat then (s, .refuse .item item.toNat) else (s, .refuse .range 1)

def execJackDefine (p : Port) (item : Item) (tail : List Byte) (s : State) : Host.Outcome State Fault Refusal :=
  request .jackDefine p (1 + tail.length) (serveJackDefine item (1 :: tail)) s

def execJackUndefine (p : Port) (item : Item) (tail : List Byte) (s : State) : Host.Outcome State Fault Refusal :=
  request .jackDefine p (1 + tail.length) (serveJackUndefine item) s

/-! ### SURVEY (R7, R8) -/

/-- |new height − old height| (section 1.5). -/
def jump (a b : Nat) : Nat := (a - b) + (b - a)

/-- The live fields after an accepted survey: a first survey leaves UNSURVEYED (R7), a later one sets the height
alone (R8). -/
def JackLive.surveyed (v : JackLive) (plan : Plan) (height : Nat) : JackLive :=
  { v with
    height := height
    state := if v.state = .unsurveyed then readyOrRodEnd plan v.rod else v.state }

/-- The sector R9 re-evaluates after a survey: the jack's own when a level-bearing height or the set changed. -/
def surveySectors (old new : Jack) : List SectorIx :=
  if new.levelBearing && (!old.levelBearing || old.live.height != new.live.height) then [new.sector] else []

/-- An accepted survey (R7, R8, R9, R77, R112, R107); one that sets a surveyed jack's own height has no effect (R8). -/
def State.surveyJack (s : State) (j : JackIx) (height : Nat) : State :=
  let old := s.jack j
  let new := { old with live := old.live.surveyed s.active height }
  if new = old then s
  else
    ((((s.setJack j new).retireSectors (surveySectors old new)).placeExposed.crawlAfter s.hMin).passMode).commit

def serveSurvey (item : Item) (payload : List Byte) (s : State) : State × Reply :=
  let height := u32At payload 0
  let qualifier := u8At payload 4
  match s.definedJack? item with
  | none => (s, .refuse .item item.toNat)
  | some j =>
    let v := (s.jack j).live
    if 2000000 < height then (s, .refuse .range 1)
    else if 1 < qualifier then (s, .refuse .range 2)
    else if v.state = .granted then (s, .refuse .busy 0)
    else if v.state ≠ .unsurveyed ∧ s.active.survlim < jump height v.height ∧ qualifier ≠ 1 then
      (s, .refuse .range (min (jump height v.height) 65535))
    else
      let t := s.surveyJack j height
      (t, .accept (be4 v.height ++ be4 (t.jack j).live.height ++ be1 (t.jack j).live.state.code))

def execSurvey (p : Port) (item : Item) (payload : List Byte) (s : State) : Host.Outcome State Fault Refusal :=
  request .survey p payload.length (serveSurvey item payload) s

/-! ### ROD EXTEND (R10) -/

/-- The live fields after rod is added: the sum saturates, and a ROD_END jack with enough rod goes to READY. -/
def JackLive.extended (v : JackLive) (plan : Plan) (length : Nat) : JackLive :=
  let rod := min (v.rod + length) 120000
  { v with
    rod := rod
    state := if v.state = .rodEnd ∧ rodShort plan rod = false then .ready else v.state }

def serveRodExtend (item : Item) (payload : List Byte) (s : State) : State × Reply :=
  let length := u16At payload 0
  match s.definedJack? item with
  | none => (s, .refuse .item item.toNat)
  | some j =>
    if length < 1 ∨ 60000 < length then (s, .refuse .range 1)
    else
      let v := (s.jack j).live.extended s.active length
      ((s.setLive j v).commit, .accept (be4 v.rod ++ be1 v.state.code))

def execRodExtend (p : Port) (item : Item) (payload : List Byte) (s : State) : Host.Outcome State Fault Refusal :=
  request .rodExtend p payload.length (serveRodExtend item payload) s

/-! ### JACK SET (R11 to R13) -/

/-- The states EXCLUDE is taken in (R11). -/
def JackState.excludable : JackState → Bool
  | .ready | .stalled | .slip | .rodEnd => true
  | .undefined | .unsurveyed | .granted | .excluded => false

/-- An accepted EXCLUDE (R11, R9, R112). -/
def State.excludeJack (s : State) (j : JackIx) : State :=
  ((((s.setLive j { (s.jack j).live with state := .excluded }).retireSectors [(s.jack j).sector])).crawlAfter s.hMin).commit

def serveJackExclude (item : Item) (s : State) : State × Reply :=
  match s.definedJack? item with
  | none => (s, .refuse .item item.toNat)
  | some j =>
    let st := (s.jack j).live.state
    if st = .granted then (s, .refuse .busy 0)
    else if !st.excludable then (s, .refuse .state st.code)
    else (s.excludeJack j, .accept (be1 JackState.excluded.code))

/-- An accepted INCLUDE (R12, R9, R77). It tests no crawl limit, also where it takes h_min from undefined to above the
limit: R112 names no INCLUDE among its events (log entry 12). -/
def State.includeJack (s : State) (j : JackIx) : State :=
  let v := (s.jack j).live
  ((s.setLive j { v with state := readyOrRodEnd s.active v.rod }).retireSectors [(s.jack j).sector]).placeExposed.commit

def serveJackInclude (item : Item) (s : State) : State × Reply :=
  match s.definedJack? item with
  | none => (s, .refuse .item item.toNat)
  | some j =>
    let v := (s.jack j).live
    if v.state = .granted then (s, .refuse .busy 0)
    else if v.state ≠ .excluded then (s, .refuse .state v.state.code)
    else (s.includeJack j, .accept (be1 (readyOrRodEnd s.active v.rod).code))

/-- The live fields after CLEAR (R13). -/
def JackLive.cleared (v : JackLive) (plan : Plan) : JackLive :=
  { v with
    state := if v.state = .stalled ∨ v.state = .slip then readyOrRodEnd plan v.rod else v.state
    shortCount := 0
    overrun := false
    ungranted := false }

def serveJackClear (item : Item) (s : State) : State × Reply :=
  match s.definedJack? item with
  | none => (s, .refuse .item item.toNat)
  | some j =>
    let st := (s.jack j).live.state
    if st = .granted then (s, .refuse .busy 0)
    else if !st.excludable then (s, .refuse .state st.code)
    else
      let v := (s.jack j).live.cleared s.active
      ((s.setLive j v).commit, .accept (be1 v.state.code))

/-- JACK SET by its action byte (section 1.7). -/
def serveJackSet (item : Item) (payload : List Byte) (s : State) : State × Reply :=
  match u8At payload 0 with
  | 1 => serveJackExclude item s
  | 2 => serveJackInclude item s
  | 3 => serveJackClear item s
  | _ => if (s.definedJack? item).isNone then (s, .refuse .item item.toNat) else (s, .refuse .range 1)

def execJackSetExclude (p : Port) (item : Item) (tail : List Byte) (s : State) : Host.Outcome State Fault Refusal :=
  request .jackSet p (1 + tail.length) (serveJackExclude item) s

def execJackSetInclude (p : Port) (item : Item) (tail : List Byte) (s : State) : Host.Outcome State Fault Refusal :=
  request .jackSet p (1 + tail.length) (serveJackInclude item) s

def execJackSetClear (p : Port) (item : Item) (tail : List Byte) (s : State) : Host.Outcome State Fault Refusal :=
  request .jackSet p (1 + tail.length) (serveJackClear item) s

/-! ### JACK READ (R14) -/

/-- The 30 bytes of JACK READ. -/
def State.jackBytes (s : State) (j : JackIx) : List Byte :=
  let r := s.jack j
  let v := r.live
  let flags := flag v.overrun 1 + flag v.ungranted 2 + flag (rodShort s.active v.rod) 4 + flag r.levelBearing 8
  boolByte r.defined ++ be1 r.station.code ++ be1 r.group.val ++ be1 r.sector.val ++ be1 (spreadRank j) ++
    be1 v.state.code ++ be1 flags ++ be4 v.height ++ be4 v.rod ++ be2 v.lastLength ++ be4? v.lastSecond ++
    be1 v.shortCount ++ be2 v.strokeCount ++ be2 v.stallCount ++ be4? ((s.grant? j).map Grant.expires)

def serveJackRead (item : Item) (s : State) : State × Reply :=
  match index? 96 item.toNat with
  | none => (s, .refuse .item item.toNat)
  | some j => (s, .accept (s.jackBytes j))

def execJackRead (p : Port) (item : Item) (payload : List Byte) (s : State) : Host.Outcome State Fault Refusal :=
  request .jackRead p payload.length (serveJackRead item) s

end Sys2Proof.Machine
end

