-- ==== Sys2Proof/Machine/Sectors.lean ====
section
/-! DEFINITION. The console's sector requests and SECTOR READ (sections 1.10, 1.11). -/

namespace Sys2Proof.Machine

/-- A probe byte: 0..11, or 0xFF for NONE (section 1.10). -/
def parseProbe (b : Nat) : Option (Option ProbeIx) :=
  if b = 0xFF then some none else (index? 12 b).map some

/-- The record a DEFINE leaves: a new sector takes its defaults, a defined one keeps its live fields (R16). -/
def Sector.define (k : Sector) (probe : Option ProbeIx) : Sector where
  defined := true
  probe := probe
  live := if k.defined then k.live else SectorLive.default

def serveSectorDefine (item : Item) (payload : List Byte) (s : State) : State × Reply :=
  match index? 24 item.toNat with
  | none => (s, .refuse .item item.toNat)
  | some k =>
    match parseProbe (u8At payload 1) with
    | none => (s, .refuse .range 2)
    | some probe =>
      if !s.mode.settingUp then (s, .refuse .mode 0)
      else
        let new := (s.sector k).define probe
        ((s.setSector k new).passMode.commit, .accept (boolByte new.live.based))

/-- Some defined jack names the sector (section 1.10, test 4). -/
def State.named (s : State) (k : SectorIx) : Bool := s.jacks.toList.any fun j => j.defined && j.sector == k

def serveSectorUndefine (item : Item) (s : State) : State × Reply :=
  match index? 24 item.toNat with
  | none => (s, .refuse .item item.toNat)
  | some k =>
    if !s.mode.settingUp then (s, .refuse .mode 0)
    else if s.named k then (s, .refuse .state 1)
    else if !(s.sector k).live.chain.isEmpty then (s, .refuse .state 2)
    else ((s.setSector k Sector.undefined).passMode.commit, .accept (be1 0))

/-- SECTOR DEFINE by its action byte (section 1.10). -/
def serveSectorDefineAny (item : Item) (payload : List Byte) (s : State) : State × Reply :=
  match u8At payload 0 with
  | 1 => serveSectorDefine item payload s
  | 2 => serveSectorUndefine item s
  | _ => if 24 ≤ item.toNat then (s, .refuse .item item.toNat) else (s, .refuse .range 1)

def execSectorDefine (p : Port) (item : Item) (tail : List Byte) (s : State) : Host.Outcome State Fault Refusal :=
  request .sectorDefine p (1 + tail.length) (serveSectorDefine item (1 :: tail)) s

def execSectorUndefine (p : Port) (item : Item) (tail : List Byte) (s : State) : Host.Outcome State Fault Refusal :=
  request .sectorDefine p (1 + tail.length) (serveSectorUndefine item) s

/-- The defined sector an item names. -/
def State.definedSector? (s : State) (item : Item) : Option SectorIx :=
  (index? 24 item.toNat).filter fun k => (s.sector k).defined

/-- SECTOR BASE (R18). -/
def serveSectorBase (item : Item) (payload : List Byte) (s : State) : State × Reply :=
  let elevation := u32At payload 0
  match s.definedSector? item with
  | none => (s, .refuse .item item.toNat)
  | some k =>
    let v := (s.sector k).live
    if 2000000 < elevation then (s, .refuse .range 1)
    else if !s.mode.settingUp then (s, .refuse .mode 0)
    else if !v.chain.isEmpty then (s, .refuse .state v.chain.length)
    else
      ((s.setSectorLive k { v with based := true, hHard := elevation }).passMode.commit, .accept (be4 elevation))

def execSectorBase (p : Port) (item : Item) (payload : List Byte) (s : State) : Host.Outcome State Fault Refusal :=
  request .sectorBase p payload.length (serveSectorBase item payload) s

/-! ### SECTOR READ (R19) -/

/-- A value of a sector in the slip, absent otherwise. -/
def Sector.whenInSlip (k : Sector) (x : Nat) : Option Nat := if k.inSlip then some x else none

/-- The 35 bytes of SECTOR READ. -/
def State.sectorBytes (s : State) (k : SectorIx) : List Byte :=
  let r := s.sector k
  let v := r.live
  let members := s.jacks.toList.filter fun j => j.defined && j.sector == k
  boolByte r.defined ++ be1 (match r.probe with | some n => n.val | none => 0xFF) ++ boolByte v.based ++
    be1 (s.sectorFlags k) ++ be1 v.chain.length ++ be1 members.length ++
    be1 (members.filter Jack.levelBearing).length ++ be4 v.hHard ++ be4? (r.whenInSlip r.fill) ++
    be4? (r.whenInSlip r.eRel) ++ be4? (s.dLow k) ++ be4? (s.dHigh k) ++ be4i? (s.dMax k) ++
    be2 v.placed ++ be2 v.retired

def serveSectorRead (item : Item) (s : State) : State × Reply :=
  match index? 24 item.toNat with
  | none => (s, .refuse .item item.toNat)
  | some k => (s, .accept (s.sectorBytes k))

def execSectorRead (p : Port) (item : Item) (payload : List Byte) (s : State) : Host.Outcome State Fault Refusal :=
  request .sectorRead p payload.length (serveSectorRead item) s

end Sys2Proof.Machine
end

