-- ==== Sys2Proof/Machine/Layers.lean ====
section
/-! DEFINITION. Placing and withdrawing layers, feed advice, and reading a chain (sections 2.3 to 2.7). -/

namespace Sys2Proof.Machine

/-! ### LAYER PLACED (R28, R29, R30) -/

/-- The new layer of a placement (R29). -/
def newLayer (slot : Slot) (k : SectorIx) (base thickness : Nat) (c : Fin 4) : Layer where
  slot := slot
  sector := k
  base := base
  top := base + thickness
  mixClass := c
  maturity := 0
  age := 0
  released := false
  stuck := false

/-- The records after an accepted placement, before the holds it may place (R29). -/
def State.appendLayer (s : State) (k : SectorIx) (slot : Slot) (free : List Slot) (thickness : Nat) (c : Fin 4) :
    State :=
  let v := (s.sector k).live
  let l := newLayer slot k (s.sector k).fill thickness c
  ({ s with freeList := free }.setSectorLive k
      { v with chain := v.chain ++ [l], placed := sat16 (v.placed + 1) }).count
    fun n => { n with layersPlaced := sat32 (n.layersPlaced + 1) }

def serveLayerPlaced (item : Item) (payload : List Byte) (s : State) : State × Reply :=
  let thickness := u16At payload 0
  match s.definedSector? item with
  | none => (s, .refuse .item item.toNat)
  | some k =>
    let r := s.sector k
    if !r.live.based then (s, .refuse .mode 0)
    else if thickness < 200 ∨ 4000 < thickness then (s, .refuse .range 1)
    else
      match index? 4 (u8At payload 2) with
      | none => (s, .refuse .range 2)
      | some c =>
        if 2000000 < r.fill + thickness then (s, .refuse .range 3)
        else if 16 ≤ r.live.chain.length then (s, .refuse .full 1)
        else
          match s.freeList with
          | [] => (s, .refuse .full 2)
          | slot :: free =>
            let t := (s.appendLayer k slot free thickness c).placeExposed.commit
            (t, .accept (be1 slot.val ++ be4 r.fill ++ be4 (r.fill + thickness) ++
              be1 (t.sector k).live.chain.length ++ be1 t.freeList.length ++ be1 (t.sectorFlags k)))

def execLayerPlaced (p : Port) (item : Item) (payload : List Byte) (s : State) : Host.Outcome State Fault Refusal :=
  request .layerPlaced p payload.length (serveLayerPlaced item payload) s

/-! ### LAYER WITHDRAW (R32, R33) -/

def State.withdrawLayer (s : State) (k : SectorIx) (l : Layer) : State :=
  let v := (s.sector k).live
  ({ s with freeList := pushSlots s.freeList [l.slot] }.setSectorLive k { v with chain := v.chain.dropLast }).count
    fun n => { n with layersWithdrawn := sat32 (n.layersWithdrawn + 1) }

def serveLayerWithdraw (item : Item) (s : State) : State × Reply :=
  match s.definedSector? item with
  | none => (s, .refuse .item item.toNat)
  | some k =>
    match (s.sector k).live.chain.getLast? with
    | none => (s, .refuse .state 1)
    | some l =>
      if l.released then (s, .refuse .state 2)
      else if 10 ≤ l.age then (s, .refuse .state 3)
      else
        let t := (s.withdrawLayer k l).commit
        (t, .accept (be1 l.slot.val ++ be4 l.base ++ be4 l.top ++ be1 (t.sector k).live.chain.length ++
          be2 t.freeList.length))

def execLayerWithdraw (p : Port) (item : Item) (payload : List Byte) (s : State) : Host.Outcome State Fault Refusal :=
  request .layerWithdraw p payload.length (serveLayerWithdraw item) s

/-! ### FEED ADVICE (R41) -/

/-- The signed room(s) of R41 for a considered sector. -/
def State.feedRoom (s : State) (k : SectorIx) : Int :=
  match s.dLow k with
  | some d => (d : Int) - s.active.freeboard - (s.sector k).fill
  | none => 0

/-- The candidates of R41; none when the pool is empty. -/
def State.feedCandidates (s : State) : List SectorIx :=
  if s.freeList.isEmpty then []
  else s.consideredSectors.filter fun k => decide (200 ≤ s.feedRoom k) && decide ((s.sector k).live.chain.length < 16)

/-- Step 1 of R41: fill-starved candidates drive the others out. -/
def State.feedPreferred (s : State) : List SectorIx :=
  let starved := s.feedCandidates.filter s.fillStarved
  if starved.isEmpty then s.feedCandidates else starved

/-- Steps 2 and 3 of R41: the largest room, the lowest index among equals. -/
def State.feedWinner (s : State) : Option SectorIx :=
  s.feedPreferred.foldl
    (fun best k =>
      match best with
      | none => some k
      | some b => if s.feedRoom b < s.feedRoom k then some k else some b)
    none

/-- The 8 bytes of FEED ADVICE. -/
def State.adviceBytes (s : State) : List Byte :=
  let counts := be1 s.starvedCount ++ be1 s.feedCandidates.length ++ be2 s.freeList.length
  match s.feedWinner with
  | some k => be1 k.val ++ be2 (min (s.feedRoom k) 4000).toNat ++ counts ++ be1 0
  | none => be1 0xFF ++ be2 0 ++ counts ++ be1 (if s.freeList.isEmpty then 1 else 2)

def serveFeedAdvice (s : State) : State × Reply := (s, .accept s.adviceBytes)

def execFeedAdvice (p : Port) (_item : Item) (payload : List Byte) (s : State) : Host.Outcome State Fault Refusal :=
  request .feedAdvice p payload.length serveFeedAdvice s

/-! ### LAYER READ (R42) -/

/-- The 10 bytes of one layer. -/
def Layer.bytes (l : Layer) : List Byte :=
  be1 l.slot.val ++ be2 (l.top - l.base) ++ be1 (l.mixClass.val + flag l.released 4 + flag l.stuck 8) ++
    be4 l.maturity ++ be2 l.age

/-- One page of a chain (R42). -/
def chainPage (chain : List Layer) (page : Nat) : List Byte :=
  let ls := (chain.drop (4 * page)).take 4
  be1 chain.length ++ be1 page ++ be1 ls.length ++ be4? (ls.head?.map Layer.base) ++ ls.flatMap Layer.bytes

def serveLayerRead (item : Item) (payload : List Byte) (s : State) : State × Reply :=
  match index? 24 item.toNat with
  | none => (s, .refuse .item item.toNat)
  | some k =>
    if 3 < u8At payload 0 then (s, .refuse .range 1)
    else
      let chain := if (s.sector k).inSlip then (s.sector k).live.chain else []
      (s, .accept (chainPage chain (u8At payload 0)))

def execLayerRead (p : Port) (item : Item) (payload : List Byte) (s : State) : Host.Outcome State Fault Refusal :=
  request .layerRead p payload.length (serveLayerRead item payload) s

end Sys2Proof.Machine
end

