-- ==== Sys2Proof/Machine/Probes.lean ====
section
/-! DEFINITION. Probe sampling, the battery monitor, PROBE READ and the maturity interval (sections 3.1 to 3.5, 10.6). -/

namespace Sys2Proof.Machine

/-- A valid sample (R47). -/
def validSample (x : Int) : Bool := decide (-300 ≤ x) && decide (x ≤ 800)

/-- The window filled with one value (R49, R51). -/
def Probe.fill (p : Probe) (x : Int) : Probe := { p with window := Vector.replicate 4 x, writeIndex := 0 }

/-- A valid sample enters the window at the write index, which advances from 3 back to 0 (R48). -/
def Probe.enter (p : Probe) (x : Int) : Probe :=
  { p with window := p.window.set p.writeIndex.val x p.writeIndex.isLt, writeIndex := p.writeIndex + 1 }

/-- A valid sample by the probe's state (R48, R49, R51). -/
def Probe.takeValid (p : Probe) (x : Int) : Probe :=
  match p.state with
  | .new => { p.fill x with invalidRun := 0, state := .good }
  | .good => { p.enter x with invalidRun := 0 }
  | .fault =>
    if p.recoveryRun = 0 then { p.fill x with recoveryRun := 1, invalidRun := 0 }
    else if p.recoveryRun < 3 then { p.enter x with recoveryRun := p.recoveryRun + 1, invalidRun := 0 }
    else { p.enter x with recoveryRun := 0, invalidRun := 0, state := .good }

/-- An invalid sample by the probe's state (R50, R51). -/
def Probe.takeInvalid (p : Probe) : Probe :=
  match p.state with
  | .new | .good =>
    if p.invalidRun < 2 then { p with invalidRun := p.invalidRun + 1 }
    else { p with invalidRun := 3, state := .fault, recoveryRun := 0, faultCount := sat16 (p.faultCount + 1) }
  | .fault => { p with recoveryRun := 0, invalidRun := 3 }

/-- One sample applied to a probe record (R47). -/
def Probe.take (p : Probe) (x : Int) : Probe :=
  let q := { p with lastSample := some x, lastValid := validSample x }
  if validSample x then q.takeValid x else q.takeInvalid

/-- The battery state after a reading in millivolts: low below 2.70 V, good from 2.90 V, kept between (R174). -/
def batteryAfter (low : Bool) (millivolts : Nat) : Bool :=
  if millivolts < 2700 then true else if 2900 ≤ millivolts then false else low

/-- The sample timer expires: twelve samples and a battery reading (R47, R174). -/
def State.sampleProbes (s : State) (samples : Vector Int 12) (battery : Nat) : State :=
  { s with
    probes := Vector.ofFn fun n => (s.probe n).take samples[n]
    batteryLow := batteryAfter s.batteryLow battery }

def execProbeSampleExpiry (samples : Vector Int 12) (battery : Nat) (s : State) :
    Host.Outcome State Fault Refusal :=
  whenRunning s fun s => if s.sampleTimer then s.sampleProbes samples battery else s

/-! ### PROBE READ (R54) -/

/-- How many defined sectors name a probe. -/
def State.namers (s : State) (n : ProbeIx) : Nat :=
  (s.sectors.toList.filter fun k => k.defined && k.probe == some n).length

/-- The 20 bytes of PROBE READ. -/
def State.probeBytes (s : State) (n : ProbeIx) : List Byte :=
  let p := s.probe n
  be1 p.state.code ++ be2i p.average ++ be2i p.window[0] ++ be2i p.window[1] ++ be2i p.window[2] ++
    be2i p.window[3] ++ be1 p.writeIndex.val ++ be2i (p.lastSample.getD (-32768)) ++ boolByte p.lastValid ++
    be1 p.invalidRun ++ be1 p.recoveryRun ++ be2 p.faultCount ++ be1 (s.namers n)

def serveProbeRead (item : Item) (s : State) : State × Reply :=
  match index? 12 item.toNat with
  | none => (s, .refuse .item item.toNat)
  | some n => (s, .accept (s.probeBytes n))

def execProbeRead (p : Port) (item : Item) (payload : List Byte) (s : State) : Host.Outcome State Fault Refusal :=
  request .probeRead p payload.length (serveProbeRead item) s

/-! ### The maturity interval (R55 to R59) -/

/-- The temperature T_s a sector takes (R57). -/
def State.temperature (s : State) (k : SectorIx) : Int :=
  match (s.sector k).probe with
  | some n => if (s.probe n).state = .good then (s.probe n).average else s.active.fallback
  | none => s.active.fallback

/-- The interval timer expires: every served sector, then the last-alive stamp, in one update (R56, R166). -/
def State.matureDeck (s : State) : State :=
  let t := s.interval fun s k => increment s.active (s.temperature k)
  { t with retained := { t.retained with stamp := t.clock } }.rewrite

def execMaturityIntervalExpiry (s : State) : Host.Outcome State Fault Refusal :=
  whenRunning s fun s => if s.intervalTimer then s.matureDeck else s

end Sys2Proof.Machine
end

