-- ==== Sys2Proof/Machine/Grants.lean ====
section
/-! DEFINITION. The Grant Unit: demands, reports, cancels, expiries and STATION VIEW (chapter 5). -/

namespace Sys2Proof.Machine

/-- The highest value of the deck clock (R90, R166). -/
def clockTop : Nat := 4294967294

/-! ### STROKE DEMAND (R84 to R92) -/

/-- The withheld reasons of R91. -/
inductive Withheld where
  | none
  | mode
  | held
  | state
  | cadence
  | rod
  | limit (l : Limit)
  | budget
  | count
deriving DecidableEq, Repr

def Withheld.code : Withheld → Nat
  | .none => 0
  | .mode => 1
  | .held => 2
  | .state => 3
  | .cadence => 4
  | .rod => 5
  | .limit .ceiling => 6
  | .limit .level => 7
  | .limit .crawl => 8
  | .budget => 9
  | .count => 10

/-- The scope of a demand: a group, or none for ALL; the outer none is a bad scope byte (R84). -/
def parseScope (b : Nat) : Option (Option (Fin 8)) :=
  if b = 0xFF then some none else (index? 8 b).map some

/-- The defined jacks of a station in a scope (R86). -/
def State.inScope (s : State) (st : Station) (scope : Option (Fin 8)) (j : JackIx) : Bool :=
  let r := s.jack j
  r.defined && r.station == st &&
    match scope with
    | some g => r.group == g
    | none => true

/-- The rank order: height, then spread rank (R86). -/
def State.rankBefore (s : State) (a b : JackIx) : Bool :=
  let x := (s.jack a).live.height
  let y := (s.jack b).live.height
  decide (x < y) || (decide (x = y) && decide (spreadRank a ≤ spreadRank b))

/-- Inserts a jack into a ranked list. -/
def State.rankInsert (s : State) (j : JackIx) : List JackIx → List JackIx
  | [] => [j]
  | k :: rest => if s.rankBefore j k then j :: k :: rest else k :: s.rankInsert j rest

/-- The candidates of a demand, ranked (R86). -/
def State.candidates (s : State) (st : Station) (scope : Option (Fin 8)) : List JackIx :=
  ((List.finRange 96).filter (s.inScope st scope)).foldr s.rankInsert []

/-- The cadence of the mode at the demand (R88). -/
def State.cadence (s : State) : Nat :=
  match s.mode with
  | .crawl => s.active.crawlInt * 60
  | .survey | .ready | .rise => s.active.cadence

/-- The cadence test (R88). -/
def State.cadencePassed (s : State) (j : Jack) : Bool :=
  match j.live.lastSecond with
  | some t => decide ((s.cadence : Int) ≤ (s.clock : Int) - t)
  | none => true

/-- The length of a grant with its fit test, or the term it is withheld for (R89). -/
def State.grantLength (s : State) (hMin : Option Nat) (j : Jack) : Limit ⊕ Nat :=
  match s.room hMin j with
  | none => .inl .ceiling
  | some (room, limit) =>
    match s.mode with
    | .crawl => if (s.active.crawlStroke : Int) ≤ room then .inr s.active.crawlStroke else .inl limit
    | .survey | .ready | .rise =>
      let length := min (s.active.lnom : Int) room
      if 50 ≤ length then .inr length.toNat else .inl limit

/-- The tests of R87 in order: the withheld reason, or the granted length. `made` counts this demand's grants. -/
def State.judge (s : State) (hMin : Option Nat) (st : Station) (most made : Nat) (j : JackIx) : Withheld ⊕ Nat :=
  let r := s.jack j
  if r.live.state ≠ .ready then .inl .state
  else if !s.cadencePassed r then .inl .cadence
  else
    match s.grantLength hMin r with
    | .inl limit => .inl (.limit limit)
    | .inr length =>
      if r.live.rod < length + 500 then .inl .rod
      else if s.active.budget st ≤ s.liveGrants st then .inl .budget
      else if most ≤ made then .inl .count
      else .inr length

/-- The expiry second of a grant issued now (R90). -/
def State.expirySecond (s : State) : Nat := min (s.clock + s.active.gto) clockTop

/-- Grants a jack (R90). -/
def State.issue (s : State) (st : Station) (j : JackIx) (length : Nat) : State :=
  let v := (s.jack j).live
  ((s.setGrant j (some ⟨st, length, s.clock, s.expirySecond, s.mode⟩)).setLive j
      { v with state := .granted, lastLength := length, lastSecond := some s.clock }).count
    fun n => { n with grantsIssued := sat32 (n.grantsIssued + 1) }

/-- A demand under way: the state, its grants in order, and the first candidate not granted. -/
structure Demand where
  state    : State
  grants   : List (JackIx × Nat)
  withheld : Option (Withheld × JackIx)

/-- One candidate of the walk (R86, R91). -/
def Demand.step (hMin : Option Nat) (st : Station) (most : Nat) (d : Demand) (j : JackIx) : Demand :=
  match d.state.judge hMin st most d.grants.length j with
  | .inr length => { d with state := d.state.issue st j length, grants := d.grants ++ [(j, length)] }
  | .inl reason => { d with withheld := d.withheld.or (some (reason, j)) }

/-- The walk of an accepted demand over its ranked candidates (R86). -/
def State.demand (s : State) (st : Station) (scope : Option (Fin 8)) (most : Nat) : Demand :=
  (s.candidates st scope).foldl (Demand.step s.hMin st most) ⟨s, [], none⟩

/-- The answer of R84 and R153. -/
def demandBytes (reason : Withheld) (jack : Nat) (expiry : Option Nat) (grants : List (JackIx × Nat)) : List Byte :=
  be1 grants.length ++ be1 reason.code ++ be1 jack ++ be4? expiry ++
    grants.flatMap fun g => be1 g.1.val ++ be2 g.2

/-- The most grants one demand makes: 16, or the maximum count when it is not 0 (section 5.2). -/
def mostGrants (count : Nat) : Nat := if count = 0 then 16 else count

def serveStrokeDemand (p : Port) (payload : List Byte) (s : State) : State × Reply :=
  match p.station?, parseScope (u8At payload 0) with
  | none, _ => (s, .refuse .role p.number)
  | some _, none => (s, .refuse .range 1)
  | some st, some scope =>
    if 16 < u8At payload 1 then (s, .refuse .range 2)
    else if !s.mode.moving then (s, .accept (demandBytes .mode 0xFF none []))
    else if !s.holds.isEmpty then (s, .accept (demandBytes .held 0xFF none []))
    else
      let d := s.demand st scope (mostGrants (u8At payload 1))
      let expiry := if d.grants.isEmpty then none else some s.expirySecond
      let answer :=
        match d.withheld with
        | some (reason, j) => demandBytes reason j.val expiry d.grants
        | none => demandBytes .none 0xFF expiry d.grants
      (d.state.commit, .accept answer)

def execStrokeDemand (p : Port) (_item : Item) (payload : List Byte) (s : State) : Host.Outcome State Fault Refusal :=
  request .strokeDemand p payload.length (serveStrokeDemand p payload) s

/-! ### STROKE REPORT (R93 to R101) -/

/-- The results of R93. -/
inductive ReportResult where
  | done
  | late
  | ungranted
  | foreign
  | undefined
  | unsurveyed
deriving DecidableEq, Repr

def ReportResult.code : ReportResult → Nat
  | .done => 0
  | .late => 1
  | .ungranted => 2
  | .foreign => 3
  | .undefined => 4
  | .unsurveyed => 5

/-- The class of an entry by the record it finds (R94). -/
def Jack.classify (j : Jack) (st : Station) : ReportResult :=
  if j.live.state = .undefined then .undefined
  else if j.station ≠ st then .foreign
  else
    match j.live.state with
    | .unsurveyed => .unsurveyed
    | .granted => .done
    | .stalled => .late
    | .ready | .slip | .rodEnd | .excluded => .ungranted
    | .undefined => .undefined

/-- Applies a travel, clamped to 400 with OVERRUN set (R95). -/
def JackLive.travelled (v : JackLive) (travel : Nat) : JackLive :=
  let t := min travel 400
  { v with
    height := min (v.height + t) 2000000
    rod := v.rod - t
    strokeCount := sat16 (v.strokeCount + 1)
    overrun := v.overrun || decide (400 < travel) }

/-- A stroke is short (R96). -/
def strokeShort (g travel : Nat) : Bool := decide (min travel 400 < g / 2)

/-- A stroke overruns its grant (R96), or its travel was clamped (R95). -/
def strokeOverrun (g travel : Nat) : Bool := decide (400 < travel) || decide (g + 30 < min travel 400)

/-- The judgement of a stroke against a granted length (R96). -/
def JackLive.judged (v : JackLive) (g travel : Nat) : JackLive :=
  { v with
    overrun := v.overrun || strokeOverrun g travel
    shortCount := if strokeShort g travel then min (v.shortCount + 1) 3 else 0 }

/-- The next state of a jack that leaves GRANTED or STALLED by a report (R97). -/
def JackLive.afterStroke (v : JackLive) (plan : Plan) : JackLive :=
  { v with state := if v.shortCount = 3 then .slip else readyOrRodEnd plan v.rod }

/-- The live fields after a DONE or LATE entry (R95 to R98). -/
def JackLive.stroked (v : JackLive) (plan : Plan) (g travel : Nat) : JackLive :=
  ((v.travelled travel).judged g travel).afterStroke plan

/-- The length of a jack's live grant (R96); a GRANTED jack always has one (R81). -/
def State.grantedLength (s : State) (j : JackIx) : Nat :=
  match s.grant? j with
  | some g => g.length
  | none => (s.jack j).live.lastLength

/-- What an entry that moves a height hands on: retirement in the jack's sector, the EXPOSED hold, and the crawl
limit against the h_min before the entry (R100, R112). -/
def State.heightMoved (s : State) (before : State) (j : JackIx) : State :=
  if (before.jack j).live.height = (s.jack j).live.height then s
  else
    let s1 := if (s.jack j).levelBearing then s.retireSector (s.jack j).sector else s
    s1.placeExposed.crawlAfter before.hMin

/-- 1 when a stroke leaves its jack in SLIP (R97). -/
def slipsOf (v : JackLive) : Nat := if v.state = .slip then 1 else 0

/-- A DONE entry: the stroke is judged against the live grant, which is removed (R97). -/
def State.doneEntry (s : State) (j : JackIx) (travel : Nat) : State :=
  let v := (s.jack j).live.stroked s.active (s.grantedLength j) travel
  (((s.setGrant j none).setLive j v).count fun n => { n with slips := sat32 (n.slips + slipsOf v) }).heightMoved s j

/-- A LATE entry: the stroke is judged against the last granted length (R98). -/
def State.lateEntry (s : State) (j : JackIx) (travel : Nat) : State :=
  let v := (s.jack j).live.stroked s.active (s.jack j).live.lastLength travel
  ((s.setLive j v).count fun n =>
    { n with slips := sat32 (n.slips + slipsOf v), lateReports := sat32 (n.lateReports + 1) }).heightMoved s j

/-- An UNGRANTED entry with travel above 0 (R99). -/
def State.ungrantedEntry (s : State) (j : JackIx) (travel : Nat) : State :=
  let v := (s.jack j).live.travelled travel
  let t := (s.setLive j { v with ungranted := true }).count fun n =>
    { n with ungrantedMoves := sat32 (n.ungrantedMoves + 1) }
  (t.placePart .part .ungrantedMove (.jack j)).heightMoved s j

/-- The result and marks byte of a report entry (R153). -/
def resultByte (r : ReportResult) (short overrun : Bool) : List Byte := be1 (r.code + flag short 16 + flag overrun 32)

/-- One entry: the state after it, and its 3 bytes of the answer (R93 to R100). The Annunciator follows each entry
(R156, R159). -/
def State.reportEntry (s : State) (st : Station) (jack travel : Nat) : State × List Byte :=
  match index? 96 jack with
  | none => (s, be1 jack ++ resultByte .undefined false false ++ be1 0)
  | some j =>
    let answer (t : State) (r : ReportResult) (short overrun : Bool) : State × List Byte :=
      (t.settle, be1 jack ++ resultByte r short overrun ++ be1 (t.jack j).live.state.code)
    match (s.jack j).classify st with
    | .undefined => answer s .undefined false false
    | .foreign => answer s .foreign false false
    | .unsurveyed => answer s .unsurveyed false false
    | .done =>
      let g := s.grantedLength j
      answer (s.doneEntry j travel) .done (strokeShort g travel) (strokeOverrun g travel)
    | .late =>
      let g := (s.jack j).live.lastLength
      answer (s.lateEntry j travel) .late (strokeShort g travel) (strokeOverrun g travel)
    | .ungranted =>
      if travel = 0 then answer s .ungranted false false
      else answer (s.ungrantedEntry j travel) .ungranted false (decide (400 < travel))

/-- The entries of a report payload: jack and travel (R153). -/
def reportEntries : List Byte → List (Nat × Nat)
  | a :: b :: c :: rest => (a.toNat, b.toNat * 256 + c.toNat) :: reportEntries rest
  | _ => []

/-- The entries one after another, in payload order (R93). -/
def State.report (s : State) (st : Station) : List (Nat × Nat) → State × List Byte
  | [] => (s, [])
  | (j, t) :: rest =>
    let r := s.reportEntry st j t
    let r' := r.1.report st rest
    (r'.1, r.2 ++ r'.2)

def serveStrokeReport (p : Port) (payload : List Byte) (s : State) : State × Reply :=
  match p.station? with
  | none => (s, .refuse .role p.number)
  | some st =>
    let r := s.report st (reportEntries payload)
    (r.1.commit, .accept (be1 (reportEntries payload).length ++ r.2))

def execStrokeReport (p : Port) (_item : Item) (payload : List Byte) (s : State) : Host.Outcome State Fault Refusal :=
  request .strokeReport p payload.length (serveStrokeReport p payload) s

/-! ### STROKE CANCEL (R103) -/

/-- One entry of a cancel: the state after it, and its 3 bytes of the answer. -/
def State.cancelEntry (s : State) (st : Station) (jack : Nat) : State × List Byte :=
  match index? 96 jack with
  | none => (s, be1 jack ++ be1 1 ++ be1 0)
  | some j =>
    if (s.grant? j).any fun g => g.station == st then
      ((s.setGrant j none).setLive j { (s.jack j).live with state := .ready },
        be1 jack ++ be1 0 ++ be1 JackState.ready.code)
    else (s, be1 jack ++ be1 1 ++ be1 (s.jack j).live.state.code)

/-- The entries one after another, in payload order. -/
def State.cancel (s : State) (st : Station) : List Byte → State × List Byte
  | [] => (s, [])
  | b :: rest =>
    let r := s.cancelEntry st b.toNat
    let r' := r.1.cancel st rest
    (r'.1, r.2 ++ r'.2)

def serveStrokeCancel (p : Port) (payload : List Byte) (s : State) : State × Reply :=
  match p.station? with
  | none => (s, .refuse .role p.number)
  | some st =>
    let r := s.cancel st payload
    (r.1.commit, .accept (be1 payload.length ++ r.2))

def execStrokeCancel (p : Port) (_item : Item) (payload : List Byte) (s : State) : Host.Outcome State Fault Refusal :=
  request .strokeCancel p payload.length (serveStrokeCancel p payload) s

/-! ### Expiry (R104) -/

/-- The expiry of a jack's live grant. -/
def State.expire (s : State) (j : JackIx) : State :=
  let v := (s.jack j).live
  (((s.setGrant j none).setLive j { v with state := .stalled, stallCount := sat16 (v.stallCount + 1) }).count
    fun n => { n with expiries := sat32 (n.expiries + 1) }).commit

/-- The grant is live and the deck clock has reached its expiry second (R104). -/
def State.grantDue (s : State) (j : JackIx) : Bool := (s.grant? j).any fun g => decide (g.expires ≤ s.clock)

def execGrantExpiry (j : JackIx) (s : State) : Host.Outcome State Fault Refusal :=
  whenRunning s fun s => if s.grantDue j then s.expire j else s

/-! ### STATION VIEW (R105) -/

/-- The live grants of a station in ascending jack index. -/
def State.stationGrants (s : State) (st : Station) : List (JackIx × Grant) :=
  (List.finRange 96).filterMap fun j =>
    match s.grant? j with
    | some g => if g.station = st then some (j, g) else none
    | none => none

/-- How many of a station's jacks are in a state. -/
def State.stateCount (s : State) (st : Station) (x : JackState) : Nat :=
  (s.jacks.toList.filter fun j => j.station == st && j.live.state == x).length

/-- The 7 bytes of a listed grant (R153). -/
def grantBytes (g : JackIx × Grant) : List Byte :=
  be1 g.1.val ++ be2 (g.2.length + flag (g.2.mode == .crawl) 32768) ++ be4 g.2.expires

/-- The answer of STATION VIEW. -/
def State.viewBytes (s : State) (st : Station) (page : Nat) : List Byte :=
  let gs := ((s.stationGrants st).drop (5 * page)).take 5
  be1 s.mode.code ++ be1 s.holds.length ++ boolByte (s.permitOn st) ++ be1 (s.active.budget st) ++
    be1 (s.liveGrants st) ++ be4? s.hMin ++
    ([JackState.unsurveyed, .ready, .granted, .stalled, .slip, .rodEnd, .excluded].flatMap fun x =>
      be1 (s.stateCount st x)) ++
    be1 page ++ be1 gs.length ++ gs.flatMap grantBytes

def serveStationView (p : Port) (payload : List Byte) (s : State) : State × Reply :=
  match p.station? with
  | none => (s, .refuse .role p.number)
  | some st =>
    if 9 < u8At payload 0 then (s, .refuse .range 1) else (s, .accept (s.viewBytes st (u8At payload 0)))

def execStationView (p : Port) (_item : Item) (payload : List Byte) (s : State) : Host.Outcome State Fault Refusal :=
  request .stationView p payload.length (serveStationView p payload) s

end Sys2Proof.Machine
end

