-- ==== Sys2Proof/Machine/Deck.lean ====
section
/-! DEFINITION. MODE SET, the hold requests, the HOLD line filter and the alive timers (chapter 6). -/

namespace Sys2Proof.Machine

/-! ### MODE SET (R108, R109) -/

def modeAnswer (s : State) : List Byte := be1 s.mode.code ++ be4? s.crawlEntry ++ be1 s.holds.length

/-- An accepted RISE or STOP: leaving CRAWL removes the CRAWL_LIMIT entry (R109). -/
def State.leaveFor (s : State) (m : Mode) : State :=
  let t := { s with mode := m }
  if s.mode = .crawl then t.dropReason .crawlLimit else t

/-- An accepted CRAWL from READY or RISE: the entry height takes h_min (R109). -/
def State.enterCrawl (s : State) (hMin : Nat) : State := { s with mode := .crawl, crawlEntry := some hMin }

def serveModeSet (payload : List Byte) (s : State) : State × Reply :=
  match u8At payload 0 with
  | 1 =>
    if s.mode = .survey then (s, .refuse .mode 0)
    else
      let t := (s.leaveFor .rise).commit
      (t, .accept (modeAnswer t))
  | 2 =>
    match s.mode with
    | .survey => (s, .refuse .mode 0)
    | .crawl => (s, .accept (modeAnswer s))
    | .ready | .rise =>
      match s.hMin with
      | none => (s, .refuse .state 1)
      | some m =>
        let t := (s.enterCrawl m).commit
        (t, .accept (modeAnswer t))
  | 3 =>
    if s.mode = .survey then (s, .accept (modeAnswer s))
    else
      let t := (s.leaveFor .ready).commit
      (t, .accept (modeAnswer t))
  | _ => (s, .refuse .range 1)

def execModeSet (p : Port) (_item : Item) (payload : List Byte) (s : State) : Host.Outcome State Fault Refusal :=
  request .modeSet p payload.length (serveModeSet payload) s

/-! ### Hold requests (R117 to R122) -/

/-- An entry is the one a source, reason and qualifier name (R114). -/
def Hold.names (h : Hold) (source : HoldSource) (reason : HoldReason) (q : Qualifier) : Bool :=
  h.source == source && h.reason == reason && h.qualifier == q

/-- The first bad field of a hold request's reason, kind and index, counted from `first`, or what they name. -/
def parseHold (reason : Option HoldReason) (kind ix first : Nat) : Nat ⊕ (HoldReason × Qualifier) :=
  match reason with
  | none => .inl first
  | some r =>
    if 2 < kind then .inl (first + 1)
    else
      match Qualifier.ofCodes? kind ix with
      | none => .inl (first + 2)
      | some q => .inr (r, q)

/-- The 4-byte answer of HOLD PLACE (R118). -/
def placeAnswer (t : State) (present : Bool) (position : Nat) : List Byte :=
  boolByte present ++ be1 position ++ be1 t.holds.length ++ be1 t.linkHolds

def serveHoldPlace (p : Port) (payload : List Byte) (s : State) : State × Reply :=
  match parseHold (HoldReason.external? (u8At payload 0)) (u8At payload 1) (u8At payload 2) 1 with
  | .inl field => (s, .refuse .range field)
  | .inr (r, q) =>
    match s.holds.findIdx? fun h => h.names p.source r q with
    | some i => (s, .accept (placeAnswer s true i))
    | none =>
      if 12 ≤ s.linkHolds then (s, .refuse .full 3)
      else
        let t := (s.pushHold p.source r q).commit
        (t, .accept (placeAnswer t false s.holds.length))

def execHoldPlace (p : Port) (_item : Item) (payload : List Byte) (s : State) : Host.Outcome State Fault Refusal :=
  request .holdPlace p payload.length (serveHoldPlace p payload) s

/-- The requesting port may release an entry of this source (R119, order 3). -/
def Port.mayRelease (p : Port) (source : HoldSource) : Bool :=
  source == p.source || (p == .console && source != .line)

/-- Removes the entry that is named; the entries after it close up (R120). -/
def State.removeHold (s : State) (source : HoldSource) (r : HoldReason) (q : Qualifier) : State :=
  { s with holds := s.holds.eraseP fun h => h.names source r q }

def serveHoldRelease (p : Port) (payload : List Byte) (s : State) : State × Reply :=
  match HoldSource.ofCode? (u8At payload 0) with
  | none => (s, .refuse .range 1)
  | some source =>
    match parseHold (HoldReason.ofCode? (u8At payload 1)) (u8At payload 2) (u8At payload 3) 2 with
    | .inl field => (s, .refuse .range field)
    | .inr (r, q) =>
      if !s.holds.any fun h => h.names source r q then (s, .refuse .state 1)
      else if !Port.mayRelease p source then (s, .refuse .state 2)
      else if r = .exposed ∧ s.anyExposed then (s, .refuse .state 3)
      else
        let t := (s.removeHold source r q).commit
        (t, .accept (be1 t.holds.length ++ be1 t.linkHolds))

def execHoldRelease (p : Port) (_item : Item) (payload : List Byte) (s : State) : Host.Outcome State Fault Refusal :=
  request .holdRelease p payload.length (serveHoldRelease p payload) s

/-- The 8 bytes of a listed entry (R122). -/
def Hold.bytes (h : Hold) : List Byte :=
  be1 h.source.code ++ be1 h.reason.code ++ be1 h.qualifier.kindCode ++ be1 h.qualifier.indexCode ++ be4 h.placed

/-- One page of the hold set (R122). -/
def holdPage (holds : List Hold) (page : Nat) : List Byte :=
  let hs := (holds.drop (6 * page)).take 6
  be1 holds.length ++ be1 page ++ be1 hs.length ++ hs.flatMap Hold.bytes

def serveHoldList (payload : List Byte) (s : State) : State × Reply :=
  if 2 < u8At payload 0 then (s, .refuse .range 1) else (s, .accept (holdPage s.holds (u8At payload 0)))

def execHoldList (p : Port) (_item : Item) (payload : List Byte) (s : State) : Host.Outcome State Fault Refusal :=
  request .holdList p payload.length (serveHoldList payload) s

/-! ### The HOLD line (R124, R125) -/

/-- The line takes a level: the input always has it, and while the module runs a change restarts the filter timer
(R124). -/
def execHoldLineChange (low : Bool) (s : State) : Host.Outcome State Fault Refusal :=
  let t := { s with holdLow := low }
  .next (if s.phase = .running ∧ s.holdLow ≠ low then { t with holdTimer := true } else t)

/-- The filter timer expires: the level decides, and the LINE entry follows a change (R125). Retained memory holds no LINE
entry, so it is not written (R165). -/
def State.decideLine (s : State) : State :=
  let t := { s with holdTimer := false, holdFilter := if s.holdLow then .asserted else .negated }
  match s.holdFilter, s.holdLow with
  | .asserted, true => t
  | .asserted, false => t.dropReason .line
  | .undecided, true => t.placePart .line .line .none
  | .negated, true => t.placePart .line .line .none
  | .undecided, false => t
  | .negated, false => t

def execHoldFilterExpiry (s : State) : Host.Outcome State Fault Refusal :=
  whenRunning s fun s => if s.holdTimer then s.decideLine else s

/-! ### Port alive (R126) -/

/-- A running alive timer of a station port expires; ports 3 and 4 hold none. -/
def execAliveTimerExpiry (p : Port) (s : State) : Host.Outcome State Fault Refusal :=
  whenRunning s fun s =>
    match p.station? with
    | some st => s.setAlive st none
    | none => s

end Sys2Proof.Machine
end

