-- ==== Sys2Proof/Machine/Plan.lean ====
section
/-! DEFINITION. PLAN STAGE, PLAN APPLY and PLAN READ (chapter 7). -/

namespace Sys2Proof.Machine

/-- The parameter of a number 1..25. -/
def Param.ofNumber? (n : Nat) : Option Param := if n = 0 then none else index? 25 (n - 1)

/-- PLAN STAGE (R131). -/
def servePlanStage (item : Item) (payload : List Byte) (s : State) : State × Reply :=
  match Param.ofNumber? item.toNat with
  | none => (s, .refuse .item item.toNat)
  | some n =>
    let x := s32At payload 0
    if x < Param.lowest n ∨ Param.highest n < x then (s, .refuse .range 1)
    else
      let t := { s with staged := s.staged.set n x }
      (t, .accept (be4i x ++ be4i (s.active.get n) ++ be1 (t.staged.differences t.active)))

def execPlanStage (p : Port) (item : Item) (payload : List Byte) (s : State) : Host.Outcome State Fault Refusal :=
  request .planStage p payload.length (servePlanStage item payload) s

/-- The plan serial rises by one, wrapping (R129). -/
def nextSerial (n : Nat) : Nat := (n + 1) % 65536

/-- Step 3 of an apply: EXPOSED first, then CRAWL_LIMIT (R136). -/
def State.planHolds (s : State) : State := s.placeExposed.placeCrawlLimit

/-- A staged plan that passes replaces the active one; a plan that differs is then handed on in the order of R133. A
plan equal to the active one changes the serial and PLAN_REJECTED alone (R133; log entry 13). -/
def State.applyPlan (s : State) : State :=
  let t := { s with active := s.staged, planSerial := nextSerial s.planSerial, planRejected := false }
  if s.staged = s.active then t
  else (t.refreshAll.retireSectors (List.finRange 24)).planHolds

/-- PLAN APPLY (R132, R133). -/
def servePlanApply (s : State) : State × Reply :=
  if s.staged.firstFailed ≠ 0 then ({ s with planRejected := true }, .refuse .state s.staged.firstFailed)
  else
    let t := s.applyPlan.commit
    (t, .accept (be2 t.planSerial ++ be1 (s.staged.differences s.active) ++ be1 t.holds.length))

def execPlanApply (p : Port) (_item : Item) (payload : List Byte) (s : State) : Host.Outcome State Fault Refusal :=
  request .planApply p payload.length servePlanApply s

/-- The 5 bytes of PLAN READ with item 0 (R140). -/
def State.planStateBytes (s : State) : List Byte :=
  be2 s.planSerial ++ boolByte s.planRejected ++ be1 (s.staged.differences s.active) ++ be1 s.staged.firstFailed

def servePlanReadState (s : State) : State × Reply := (s, .accept s.planStateBytes)

/-- The 17 bytes of PLAN READ with item 1..25 (R139). -/
def State.planBytes (s : State) (n : Param) : List Byte :=
  be4i (s.active.get n) ++ be4i (s.staged.get n) ++ be4i (Param.lowest n) ++ be4i (Param.highest n) ++
    boolByte (s.staged.get n != s.active.get n)

def servePlanRead (item : Item) (s : State) : State × Reply :=
  if item = 0 then servePlanReadState s
  else
    match Param.ofNumber? item.toNat with
    | none => (s, .refuse .item item.toNat)
    | some n => (s, .accept (s.planBytes n))

def execPlanRead (p : Port) (item : Item) (payload : List Byte) (s : State) : Host.Outcome State Fault Refusal :=
  request .planRead p payload.length (servePlanRead item) s

def execPlanReadState (p : Port) (payload : List Byte) (s : State) : Host.Outcome State Fault Refusal :=
  request .planRead p payload.length servePlanReadState s

end Sys2Proof.Machine
end

