-- ==== Sys2Proof/Machine/Annunciator.lean ====
section
/-! DEFINITION. SILENCE, DECK SUMMARY, COUNTERS, DIAGNOSE and IDENTITY (chapter 9, section 8.8). -/

namespace Sys2Proof.Machine

/-! ### SILENCE (R158) -/

/-- Every true condition joins the mute set. -/
def State.silenced (s : State) : State :=
  { s with sounder := { s.sounder with muted := (s.sounder.muted.inter s.conditions).union s.conditions } }

def serveSilence (s : State) : State × Reply :=
  let t := s.silenced
  let playing := match s.conditions.select t.sounder.muted with
    | some c => c.priority
    | none => 0
  (t, .accept (be1 s.conditions.code ++ be1 t.sounder.muted.code ++ be1 playing))

def execSilence (p : Port) (_item : Item) (payload : List Byte) (s : State) : Host.Outcome State Fault Refusal :=
  request .silence p payload.length serveSilence s

/-! ### The sounder in time (R157) -/

/-- One millisecond of a playing pattern, which repeats its cycle. -/
def Sounder.advance (o : Sounder) : Sounder :=
  match o.playing with
  | some c => { o with positionMs := (o.positionMs + 1) % c.cycleMs }
  | none => o

/-- What happens while no command waits: one millisecond of the sounder's pattern passes (log entry 7). -/
def State.idle (s : State) : State := { s with sounder := s.sounder.advance }

/-! ### DECK SUMMARY (R160, R153) -/

/-- The ten alert flags of R160. -/
def State.alertFlags (s : State) : Nat :=
  flag s.levelAlert 1 + flag s.anyLag 2 + flag s.anyOverfill 4 + flag s.anyExposed 8 + flag s.probeCondition 16 +
    flag s.anyStall 32 + flag s.planRejected 64 + flag s.storeBad 128 + flag s.retainLost 256 + flag s.batteryLow 512

/-- The spread field: 0xFFFF when undefined, at most 65,534 (R66). -/
def spreadField : Option Nat → Nat
  | some d => min d 65534
  | none => 0xFFFF

/-- The 28 bytes of DECK SUMMARY. -/
def State.summaryBytes (s : State) : List Byte :=
  let lowest := s.lowestDMax
  be1 s.mode.code ++ be1 s.holds.length ++ be2 s.alertFlags ++ be4? s.hMin ++ be4? s.hMax ++
    be2 (spreadField s.spread) ++ be4i? (lowest.map Prod.fst) ++
    be1 (match lowest with | some d => d.2.val | none => 0xFF) ++ be1 s.starvedCount ++
    be1 (s.liveGrants .A) ++ be1 (s.liveGrants .B) ++ be4 s.clock ++ be2 s.planSerial

def serveDeckSummary (s : State) : State × Reply := (s, .accept s.summaryBytes)

def execDeckSummary (p : Port) (_item : Item) (payload : List Byte) (s : State) : Host.Outcome State Fault Refusal :=
  request .deckSummary p payload.length serveDeckSummary s

/-! ### COUNTERS (R161, R162) -/

def PortCounters.bytes (c : PortCounters) : List Byte :=
  be2 c.good ++ be2 c.check ++ be2 c.gap ++ be2 c.length ++ be2 c.overrun ++ be2 c.refused

/-- The 48 bytes of pages 0 and 2. -/
def State.portCounterBytes (s : State) : List Byte := Port.all.flatMap fun p => (s.port p).counters.bytes

/-- The 32 bytes of page 1. -/
def DeckCounters.bytes (c : DeckCounters) : List Byte :=
  be4 c.grantsIssued ++ be4 c.expiries ++ be4 c.lateReports ++ be4 c.ungrantedMoves ++ be4 c.slips ++
    be4 c.layersPlaced ++ be4 c.layersRetired ++ be4 c.layersWithdrawn

/-- All 24 port counters become 0. -/
def State.clearPortCounters (s : State) : State :=
  { s with ports := s.ports.map fun p => { p with counters := PortCounters.zero } }

/-- Page 0: the values, then the clear. -/
def serveCountersReadClear (s : State) : State × Reply := (s.clearPortCounters, .accept s.portCounterBytes)

def serveCounters (payload : List Byte) (s : State) : State × Reply :=
  match u8At payload 0 with
  | 0 => serveCountersReadClear s
  | 1 => (s, .accept s.counters.bytes)
  | 2 => (s, .accept s.portCounterBytes)
  | _ => (s, .refuse .range 1)

def execCounters (p : Port) (_item : Item) (payload : List Byte) (s : State) : Host.Outcome State Fault Refusal :=
  request .counters p payload.length (serveCounters payload) s

def execCountersReadClear (p : Port) (_item : Item) (tail : List Byte) (s : State) :
    Host.Outcome State Fault Refusal :=
  request .counters p (1 + tail.length) serveCountersReadClear s

/-! ### DIAGNOSE (R163, R164) -/

def SounderLoad.code : SounderLoad → Nat
  | .present => 0
  | .openCircuit => 1
  | .shorted => 2

/-- The retained check, formed afresh, matches. -/
def State.retainedMatches (s : State) (intact : Bool) : Bool := intact && s.retained.checkGood

/-- The store check, formed afresh, matches. -/
def State.storeMatches (s : State) (intact : Bool) : Bool := intact && s.store.checkGood

/-- The 21 bytes of DIAGNOSE. -/
def State.diagnoseBytes (s : State) (seen : Findings) : List Byte :=
  let a := s.permitOn .A
  let b := s.permitOn .B
  boolByte (!s.retainedMatches seen.retainedIntact) ++ boolByte (!s.storeMatches seen.storeIntact) ++
    (s.probes.toList.flatMap fun p => be1 p.state.code) ++ boolByte a ++ boolByte seen.sensedA ++ boolByte b ++
    boolByte seen.sensedB ++
    be1 (flag (a != seen.sensedA) 1 + flag (b != seen.sensedB) 2 + flag (seen.load != .present) 4) ++
    be1 (SounderLoad.code seen.load) ++ boolByte s.batteryLow

/-- What a memory lost before DIAGNOSE looked stays lost: the held checks no longer match (log entry 6). -/
def State.foundMemories (s : State) (seen : Findings) : State :=
  { s with retained := s.retained.found seen.retainedIntact, store := s.store.found seen.storeIntact }

/-- DIAGNOSE answers; a failed retained check starts the sequence once the answer has left port 4 (R164). -/
def serveDiagnose (seen : Findings) (s : State) : State × Reply :=
  let t := s.foundMemories seen
  (if s.retainedMatches seen.retainedIntact then t else { t with afterAnswer := .retainedLoss },
    .accept (s.diagnoseBytes seen))

def execDiagnose (p : Port) (_item : Item) (payload : List Byte) (seen : Findings) (s : State) :
    Host.Outcome State Fault Refusal :=
  request .diagnose p payload.length (serveDiagnose seen) s

/-! ### IDENTITY (R155) -/

/-- The 8 bytes of IDENTITY. -/
def State.identityBytes (s : State) (p : Port) : List Byte :=
  be2 0x0D5A ++ be2 0x0960 ++ be1 Config.designRevision ++ be1 s.storeState ++ be1 p.number ++
    be1 (s.port p).speed.code

def serveIdentity (p : Port) (s : State) : State × Reply := (s, .accept (s.identityBytes p))

def execIdentity (p : Port) (_item : Item) (payload : List Byte) (s : State) : Host.Outcome State Fault Refusal :=
  request .identity p payload.length (serveIdentity p) s

end Sys2Proof.Machine
end

