-- ==== Sys2Proof/Machine/Retention.lean ====
section
/-! DEFINITION. Port speeds, the configuration store's requests, start-up, CLEAR DECK, power, reset and the deck clock
(chapter 10, R142, R175). -/

namespace Sys2Proof.Machine

/-! ### Port speeds (R141, R142) -/

/-- The speed held for a port reaches its line; a partial frame is discarded without count when the speed changes. -/
def PortRec.takeSpeed (p : PortRec) : PortRec :=
  if p.lineSpeed = p.speed then p
  else
    { p with
      lineSpeed := p.speed
      receiver := match p.receiver with
        | .collecting _ => .listening
        | r => r }

/-- The port's line is not held by an answer, so a new speed reaches it at once (R142). -/
def Receiver.open : Receiver → Bool
  | .listening | .collecting _ => true
  | .answering _ | .serving _ => false

/-- Writes a speed into the configuration in use. Port 4 takes it when its answer has left, another port as soon as
its receiver is open (R142). -/
def State.setSpeed (s : State) (p : Port) (v : Speed) : State :=
  let r := { s.port p with speed := v }
  s.setPort p (if p ≠ .console ∧ r.receiver.open then r.takeSpeed else r)

/-- PORT SET (R142). -/
def servePortSet (item : Item) (payload : List Byte) (s : State) : State × Reply :=
  match Port.ofNumber? item.toNat with
  | none => (s, .refuse .item item.toNat)
  | some q =>
    match Speed.ofCode? (u8At payload 0) with
    | none => (s, .refuse .range 1)
    | some v => (s.setSpeed q v, .accept (be1 v.code))

def execPortSet (p : Port) (item : Item) (payload : List Byte) (s : State) : Host.Outcome State Fault Refusal :=
  request .portSet p payload.length (servePortSet item payload) s

/-! ### The configuration in use (R167) -/

def Jack.definition (j : Jack) : Option JackDef := if j.defined then some ⟨j.station, j.group, j.sector⟩ else none
def Sector.definition (k : Sector) : Option SectorDef := if k.defined then some ⟨k.probe⟩ else none

/-- The snapshot of R168. -/
def State.configuration (s : State) : Configuration where
  jacks := s.jacks.map Jack.definition
  sectors := s.sectors.map Sector.definition
  plan := s.active
  speeds := s.ports.map PortRec.speed

def Configuration.jackCount (c : Configuration) : Nat := (c.jacks.toList.filter Option.isSome).length
def Configuration.sectorCount (c : Configuration) : Nat := (c.sectors.toList.filter Option.isSome).length

/-! ### CONFIG SAVE (R168) -/

def serveConfigSave (s : State) : State × Reply :=
  ({ s with storeOp := some (.save s.configuration s.planSerial) }, .serve)

def execConfigSave (p : Port) (_item : Item) (payload : List Byte) (s : State) : Host.Outcome State Fault Refusal :=
  request .configSave p payload.length serveConfigSave s

/-- The end of a save: the store holds the snapshot, or its check failed at the read-back. -/
def State.endSave (s : State) (snapshot : Configuration) (serial : Nat) (good : Bool) : State :=
  let t := { s with storeOp := none, storeBad := !good }
  if good then
    { t with store := Store.holding snapshot }.respond .console Request.configSave.code
      (.accept (be2 serial ++ be1 snapshot.jackCount ++ be1 snapshot.sectorCount))
  else
    { t with store := t.store.spoil }.respond .console Request.configSave.code (.refuse .state 2)

def execConfigSaveEnd (readBackGood : Bool) (s : State) : Host.Outcome State Fault Refusal :=
  whenRunning s fun s =>
    match s.storeOp with
    | some (.save snapshot serial) => s.endSave snapshot serial readBackGood
    | some .load => s
    | some .factory => s
    | none => s

/-! ### CONFIG LOAD and CONFIG FACTORY (R169) -/

/-- The tests of section 10.3. The deck is as it was until the request's end, a kept jack's change of sector too, as R169
says and R80 does not (the model's choice, log entry 29). -/
def serveConfigStart (op : StoreOp) (s : State) : State × Reply :=
  if !s.mode.settingUp then (s, .refuse .mode 0)
  else if s.anyGrant then (s, .refuse .state 1)
  else ({ s with storeOp := some op }, .serve)

def serveConfigLoad (s : State) : State × Reply := serveConfigStart .load s

def execConfigLoad (p : Port) (_item : Item) (payload : List Byte) (s : State) : Host.Outcome State Fault Refusal :=
  request .configLoad p payload.length serveConfigLoad s

def serveConfigFactory (s : State) : State × Reply := serveConfigStart .factory s

def execConfigFactory (p : Port) (_item : Item) (payload : List Byte) (s : State) : Host.Outcome State Fault Refusal :=
  request .configFactory p payload.length serveConfigFactory s

/-- A jack record under a new configuration: live data is kept while it stays defined (R169). -/
def Jack.reconfigure (j : Jack) : Option JackDef → Jack
  | none => Jack.undefined
  | some d => ⟨d.station, d.group, d.sector, if j.defined then j.live else JackLive.fresh⟩

/-- A sector record under a new configuration (R169). -/
def Sector.reconfigure (k : Sector) : Option SectorDef → Sector
  | none => Sector.undefined
  | some d => ⟨true, d.probe, if k.defined then k.live else SectorLive.default⟩

/-- The slots of the chains of sectors a configuration leaves undefined, ascending, bottom layer first (R44). -/
def lostSlots (chains : SectorIx → List Layer) (c : Configuration) : List Slot :=
  (List.finRange 24).flatMap fun k => if c.sectors[k].isNone then (chains k).map Layer.slot else []

/-- A sector's level-bearing jacks differ between two jack tables (R37). -/
def membersChanged (old new : Vector Jack 96) (k : SectorIx) : Bool :=
  (List.finRange 96).any fun j =>
    (old[j].levelBearing && old[j].sector == k) != (new[j].levelBearing && new[j].sector == k)

/-- The speeds of a configuration go to the ports as PORT SET would send them (R141). -/
def State.setSpeeds (s : State) (speeds : Vector Speed 4) : State :=
  Port.all.foldl (fun s p => s.setSpeed p speeds[p.ix]) s

/-- Writes the definitions, plan and speeds of a configuration over the one in use (R169, R130). -/
def State.replaceConfiguration (s : State) (c : Configuration) : State :=
  { s with
    jacks := Vector.ofFn fun j => (s.jack j).reconfigure c.jacks[j]
    sectors := Vector.ofFn fun k => (s.sector k).reconfigure c.sectors[k]
    freeList := pushSlots s.freeList (lostSlots (fun k => (s.sector k).live.chain) c)
    active := c.plan
    staged := c.plan
    planSerial := nextSerial s.planSerial
    planRejected := false }.setSpeeds c.speeds

/-- The end of a load: one change, then flags, retirement, the EXPOSED hold and the mode (R169). R169 and R161 leave the
deck counters as they are, and R36 counts each retirement; the model counts those that this end runs, and no other counter
changes (log entry 28). A jack kept defined with a changed sector counts in its new sector from this end on, as R169 says;
R80 has it count there from the moment the request is taken (the model's choice, log entry 29). -/
def State.adopt (s : State) (c : Configuration) : State :=
  let t := s.replaceConfiguration c
  let released := t.newlyReleased
  let ks := (List.finRange 24).filter fun k => membersChanged s.jacks t.jacks k || released.contains k
  ((t.refreshAll.retireSectors ks).placeExposed.deriveMode).commit

/-- The 5 bytes of the answer of a load. -/
def State.adoptBytes (s : State) : List Byte :=
  be2 s.planSerial ++ be1 s.mode.code ++ be1 s.definedJacks ++ be1 s.definedSectors

/-- The end of CONFIG LOAD: a bad check leaves the configuration in use unchanged. -/
def State.endLoad (s : State) (storeIntact : Bool) : State :=
  if s.storeMatches storeIntact then
    let t := { s with storeOp := none, storeBad := false }.adopt s.store.contents
    t.respond .console Request.configLoad.code (.accept t.adoptBytes)
  else
    { s with storeOp := none, storeBad := true, store := s.store.found storeIntact }.respond .console
      Request.configLoad.code (.refuse .state 2)

def execConfigLoadEnd (storeIntact : Bool) (s : State) : Host.Outcome State Fault Refusal :=
  whenRunning s fun s =>
    match s.storeOp with
    | some .load => s.endLoad storeIntact
    | some (.save _ _) => s
    | some .factory => s
    | none => s

/-- The end of CONFIG FACTORY: STORE_BAD is unchanged. -/
def State.endFactory (s : State) : State :=
  let t := { s with storeOp := none }.adopt Configuration.factory
  t.respond .console Request.configFactory.code (.accept t.adoptBytes)

def execConfigFactoryEnd (s : State) : Host.Outcome State Fault Refusal :=
  whenRunning s fun s =>
    match s.storeOp with
    | some .factory => s.endFactory
    | some (.save _ _) => s
    | some .load => s
    | none => s

/-! ### CLEAR DECK (R173, R21) -/

/-- A defined jack goes to UNSURVEYED with its live fields at their defaults. -/
def Jack.clear (j : Jack) : Jack := if j.defined then { j with live := JackLive.fresh } else Jack.undefined

/-- A defined sector becomes UNBASED with an empty chain and both counts 0. -/
def Sector.clear (k : Sector) : Sector := if k.defined then { k with live := SectorLive.default } else Sector.undefined

/-- The retained-loss path of R172 over the definitions in use, but for the hold set and the plan serial. -/
def State.clearLive (s : State) : State :=
  { s with
    jacks := s.jacks.map Jack.clear
    sectors := s.sectors.map Sector.clear
    freeList := freshPool
    crawlEntry := none
    counters := DeckCounters.zero
    retained := { s.retained with counter := 0, stamp := 0, runMark := true } }

/-- The hold set keeps its LINE entry alone (R123). -/
def State.keepLine (s : State) : State := { s with holds := s.holds.filter fun h => h.reason == .line }

def serveClearDeck (s : State) : State × Reply :=
  if s.mode ≠ .ready then (s, .refuse .mode 0)
  else if s.anyGrant then (s, .refuse .state 1)
  else
    let t := s.clearLive.keepLine.deriveMode.rewrite
    (t, .accept (be1 t.mode.code))

def execClearDeck (p : Port) (_item : Item) (payload : List Byte) (s : State) : Host.Outcome State Fault Refusal :=
  request .clearDeck p payload.length serveClearDeck s

/-! ### Start-up (R170 to R172) -/

/-- A jack record at a good start-up: a GRANTED jack comes up STALLED (R20, R82). -/
def rebuildJack (v : JackLive) : Option JackDef → Jack
  | none => Jack.undefined
  | some d =>
    ⟨d.station, d.group, d.sector,
      if v.state = .undefined then JackLive.fresh
      else if v.state = .granted then { v with state := .stalled, stallCount := sat16 (v.stallCount + 1) }
      else v⟩

/-- A sector record at a good start-up (R20). -/
def rebuildSector (r : RetainedSector) : Option SectorDef → Sector
  | none => Sector.undefined
  | some d => ⟨true, d.probe, if r.defined then r.live else SectorLive.default⟩

/-- How many jacks that a configuration defines retained memory holds as GRANTED (R82). -/
def lostGrants (m : Retained) (c : Configuration) : Nat :=
  ((List.finRange 96).filter fun j => c.jacks[j].isSome && m.jacks[j].state == .granted).length

/-- Step 2 of R171 with good memories: the records from retained memory against the configuration. -/
def State.rebuildRecords (s : State) (c : Configuration) : State :=
  let m := s.retained
  { s with
    jacks := Vector.ofFn fun j => rebuildJack m.jacks[j] c.jacks[j]
    sectors := Vector.ofFn fun k => rebuildSector m.sectors[k] c.sectors[k]
    freeList := pushSlots m.freeList (lostSlots (fun k => m.sectors[k].live.chain) c)
    holds := m.holds.filter fun h => h.reason != .crawlLimit
    crawlEntry := m.crawlEntry
    planSerial := nextSerial m.planSerial
    counters := { m.counters with expiries := sat32 (m.counters.expiries + lostGrants m c) }
    active := c.plan }

/-- The refresh and retirement that end step 2 (R26, R38). -/
def State.rebuild (s : State) (c : Configuration) : State :=
  let t := s.rebuildRecords c
  t.refreshAll.retireSectors t.newlyReleased

/-- The credited intervals: an outage of whole minutes, at most 1440 (R62). -/
def creditIntervals (m : Retained) : Nat := min ((m.counter - m.stamp) / 60) 1440

/-- Credited intervals, one after another (R62). -/
def State.credit (s : State) : Nat → State
  | 0 => s
  | n + 1 => (s.credit n).interval fun s _ => increment s.active s.active.fallback

/-- Step 3 of R171: the credit, the last-alive stamp, and the EXPOSED hold. -/
def State.creditOutage (s : State) : State :=
  let t := s.credit (creditIntervals s.retained)
  { t with retained := { t.retained with stamp := t.clock } }.placeExposed

/-- The retained-loss path of R172 under a configuration. -/
def State.loseDeck (s : State) (c : Configuration) : State :=
  { s with
    jacks := Vector.ofFn fun j => Jack.undefined.reconfigure c.jacks[j]
    sectors := Vector.ofFn fun k => Sector.undefined.reconfigure c.sectors[k]
    holds := []
    planSerial := 0
    active := c.plan }.clearLive

/-- Step 5 of R171: the start-up values of the other blocks, and the timers start. -/
def State.startBlocks (s : State) (c : Configuration) (battery : Nat) : State :=
  { s with
    phase := .running
    grants := Vector.replicate 96 none
    probes := Vector.replicate 12 Probe.fresh
    staged := s.active
    planRejected := false
    ports := c.speeds.map PortRec.fresh
    aliveA := none
    aliveB := none
    holdFilter := .undecided
    holdTimer := true
    permitA := false
    permitB := false
    sounder := ⟨none, 0, Conditions.empty⟩
    sampleTimer := true
    intervalTimer := true
    storeOp := none
    afterAnswer := .nothing
    batteryLow := batteryAfter s.batteryLow battery }

/-- The start-up sequence from what its two memory checks found (R171). -/
def State.startUpFound (s : State) (storeGood retainedGood : Bool) (battery : Nat) : State :=
  let c := if storeGood then s.store.contents else Configuration.factory
  let s1 := { s with storeBad := !storeGood, retainLost := !retainedGood }
  let s2 := if storeGood && retainedGood then (s1.rebuild c).creditOutage else s1.loseDeck c
  (s2.deriveMode.startBlocks c battery).rewrite

/-- The start-up sequence (R171). `retainedBad` says a failed retained check of DIAGNOSE started it (R164). -/
def State.startUp (s : State) (retainedBad retainedIntact storeIntact : Bool) (battery : Nat) : State :=
  { s with store := s.store.found storeIntact }.startUpFound (s.storeMatches storeIntact)
    (s.retainedMatches retainedIntact && s.retained.runMark && !retainedBad) battery

def execStartUpSequence (retainedIntact storeIntact : Bool) (battery : Nat) (s : State) :
    Host.Outcome State Fault Refusal :=
  match s.phase with
  | .starting retainedBad => .next (s.startUp retainedBad retainedIntact storeIntact battery).settle
  | .off => .next s
  | .inReset => .next s
  | .running => .next s

/-- RESTART (R170): answered now; the sequence follows once the answer has left port 4. -/
def serveRestart (s : State) : State × Reply := ({ s with afterAnswer := .restart }, .accept [])

def execRestart (p : Port) (_item : Item) (payload : List Byte) (s : State) : Host.Outcome State Fault Refusal :=
  request .restart p payload.length serveRestart s

/-! ### Power, reset and the run mark (R165, R166, R168, R170) -/

/-- A store request ends unfinished: a save's write leaves a check that fails (R168). -/
def State.abortStore (s : State) : State :=
  match s.storeOp with
  | some (.save _ _) => { s with storeOp := none, store := s.store.spoil }
  | some .load => { s with storeOp := none }
  | some .factory => { s with storeOp := none }
  | none => s

/-- The module stops taking events: its contacts open and its sounder falls silent. What an answer was holding back is
forgotten, so a supply or RESET event that comes between a failed DIAGNOSE and its sequence is the cause that counts
(log entry 10). -/
def State.halt (s : State) (ph : Phase) : State := { s.abortStore with phase := ph, afterAnswer := .nothing }.settle

/-- The main supply rises: the sequence follows, or reset while the RESET line is low. -/
def execPowerOn (s : State) : Host.Outcome State Fault Refusal :=
  match s.phase with
  | .off => .next (if s.resetLow then s.halt .inReset else s.halt (.starting false))
  | .inReset => .next s
  | .starting _ => .next s
  | .running => .next s

/-- The power-fail detector trips. -/
def execPowerFail (s : State) : Host.Outcome State Fault Refusal := .next (s.halt .off)

/-- The RESET line has been low for 10 ms. -/
def execResetLineLow (s : State) : Host.Outcome State Fault Refusal :=
  let t := { s with resetLow := true }
  match s.phase with
  | .off => .next t
  | .inReset => .next (t.halt .inReset)
  | .starting _ => .next (t.halt .inReset)
  | .running => .next (t.halt .inReset)

/-- The RESET line returns high. -/
def execResetLineHigh (s : State) : Host.Outcome State Fault Refusal :=
  let t := { s with resetLow := false }
  match s.phase with
  | .inReset => .next (t.halt (.starting false))
  | .off => .next t
  | .starting _ => .next t
  | .running => .next t

/-- The battery falls below the retention level; it matters only while the main supply is off (R166). The mark is of the
retained contents, so the check follows it (R165). -/
def execRunMarkBreak (s : State) : Host.Outcome State Fault Refusal :=
  .next (if s.phase = .off then { s with retained := s.retained.recheck { s.retained with runMark := false } }
    else s)

/-! ### The deck clock (R166, R175) -/

/-- The battery seconds counter counts, powered or not, and stops at its top. It is of the retained contents, so the check
follows it (R165). -/
def execDeckClockAdvance (s : State) : Host.Outcome State Fault Refusal :=
  .next { s with
    retained := s.retained.recheck { s.retained with counter := min (s.retained.counter + 1) clockTop } }

end Sys2Proof.Machine
end

