-- ==== Sys2Proof/Machine/Link.lean ====
section
/-! DEFINITION. The deck link's own events: bad checks, discards, the gap timer, answers leaving, and unknown codes
(sections 8.2 to 8.4). -/

namespace Sys2Proof.Machine

/-! ### A bad check (R144) -/

/-- A frame whose check differs: counted in CHECK alone, and answered REFUSE CHECK with the check formed. -/
def State.checkFail (s : State) (p : Port) (code : Byte) (formed : Nat) : State :=
  (s.countPort p fun k => { k with check := sat16 (k.check + 1) }).setReceiver p
    (.answering ⟨.refuse, code, refusal .check formed⟩)

def execFrameCheckFail (p : Port) (code : Byte) (item : Item) (payload : List Byte) (s : State) :
    Host.Outcome State Fault Refusal :=
  whenRunning s fun s =>
    s.onFrame p payload.length fun s => s.checkFail p code (crc16 (requestBody code item payload)).toNat

/-! ### Discards (R147, R149) -/

/-- A payload length byte above 56 is received. -/
def execFrameLengthDiscard (p : Port) (s : State) : Host.Outcome State Fault Refusal :=
  whenRunning s fun s => s.lengthDiscard p

/-- A frame completes in SERVING; in any other receiver state no frame is discarded for that. -/
def execFrameOverrunDiscard (p : Port) (s : State) : Host.Outcome State Fault Refusal :=
  whenRunning s fun s =>
    match (s.port p).receiver with
    | .serving _ => s.overrunDiscard p
    | .listening => s
    | .collecting _ => s
    | .answering _ => s

/-! ### The gap timer (R146, R149) -/

/-- The gap timer discards the partial frame and counts it in GAP. -/
def State.gapDiscard (s : State) (p : Port) (r : Receiver) : State :=
  (s.countPort p fun k => { k with gap := sat16 (k.gap + 1) }).setReceiver p r

/-- The timer runs only while a frame is being gathered. -/
def execGapTimerExpiry (p : Port) (s : State) : Host.Outcome State Fault Refusal :=
  whenRunning s fun s =>
    match (s.port p).receiver with
    | .collecting _ => s.gapDiscard p .listening
    | .serving (_ :: _) => s.gapDiscard p (.serving [])
    | .serving [] => s
    | .listening => s
    | .answering _ => s

/-! ### An answer has left (R145, R142, R164, R170) -/

/-- The receiver listens again and a changed speed reaches the line. -/
def State.reopen (s : State) (p : Port) : State := s.setPort p { s.port p with receiver := .listening }.takeSpeed

/-- What the answer that has left port 4 was holding back. -/
def State.afterConsole (s : State) : State :=
  match s.afterAnswer with
  | .nothing => s
  | .restart => s.halt (.starting false)
  | .retainedLoss => s.halt (.starting true)

/-- The last byte of the answer leaves the port. -/
def State.answerLeft (s : State) (p : Port) : State :=
  match (s.port p).receiver with
  | .answering _ => if p = .console then (s.reopen p).afterConsole else s.reopen p
  | .listening => s
  | .collecting _ => s
  | .serving _ => s

def execAnswerSent (p : Port) (s : State) : Host.Outcome State Fault Refusal :=
  whenRunning s fun s => s.answerLeft p

/-! ### A code outside the table (R148) -/

/-- A good frame whose code is not in the table of section 8.4. -/
def State.takeUnknown (s : State) (p : Port) (code : Byte) : State :=
  (s.goodFrame p).respond p code (.refuse .unknown code.toNat)

/-- A good frame with an unknown code; a known code is no such frame. -/
def execUnknownRequestCode (p : Port) (code : Byte) (_item : Item) (payload : List Byte) (s : State) :
    Host.Outcome State Fault Refusal :=
  match Request.ofCode? code with
  | some _ => .next s
  | none => whenRunning s fun s => s.onFrame p payload.length fun s => s.takeUnknown p code

end Sys2Proof.Machine
end

