-- ==== Sys2Proof/Machine/Receive.lean ====
section
/-! DEFINITION. A port's bytes one by one: lead search, gathering, and what a completed frame meets (R143 to R149). -/

namespace Sys2Proof.Machine

/-- The serving rule of a request (section 8.4). -/
def serveRequest (r : Request) (p : Port) (item : Item) (payload : List Byte) (seen : Findings) (s : State) :
    State × Reply :=
  match r with
  | .deckSummary => serveDeckSummary s
  | .jackRead => serveJackRead item s
  | .sectorRead => serveSectorRead item s
  | .layerRead => serveLayerRead item payload s
  | .probeRead => serveProbeRead item s
  | .planRead => servePlanRead item s
  | .identity => serveIdentity p s
  | .strokeDemand => serveStrokeDemand p payload s
  | .strokeReport => serveStrokeReport p payload s
  | .strokeCancel => serveStrokeCancel p payload s
  | .stationView => serveStationView p payload s
  | .layerPlaced => serveLayerPlaced item payload s
  | .feedAdvice => serveFeedAdvice s
  | .layerWithdraw => serveLayerWithdraw item s
  | .holdPlace => serveHoldPlace p payload s
  | .holdRelease => serveHoldRelease p payload s
  | .holdList => serveHoldList payload s
  | .modeSet => serveModeSet payload s
  | .survey => serveSurvey item payload s
  | .rodExtend => serveRodExtend item payload s
  | .jackSet => serveJackSet item payload s
  | .jackDefine => serveJackDefineAny item payload s
  | .sectorDefine => serveSectorDefineAny item payload s
  | .sectorBase => serveSectorBase item payload s
  | .planStage => servePlanStage item payload s
  | .planApply => servePlanApply s
  | .silence => serveSilence s
  | .configSave => serveConfigSave s
  | .configLoad => serveConfigLoad s
  | .configFactory => serveConfigFactory s
  | .clearDeck => serveClearDeck s
  | .restart => serveRestart s
  | .diagnose => serveDiagnose seen s
  | .counters => serveCounters payload s
  | .portSet => servePortSet item payload s

/-- A good frame is taken: by its request's rule, or as an unknown code (R148). -/
def State.takeFrame (s : State) (p : Port) (code : Byte) (item : Item) (payload : List Byte) (seen : Findings) :
    State :=
  match Request.ofCode? code with
  | some r => s.take r p payload.length (serveRequest r p item payload seen)
  | none => s.takeUnknown p code

/-- What the bytes gathered so far make of a frame. -/
inductive Gathered where
  /-- More bytes are to come. -/
  | partly
  /-- The payload length byte is above 56 (R147). -/
  | tooLong
  /-- The second check byte has come (R143). -/
  | whole
deriving DecidableEq, Repr

/-- The payload length byte is the fifth; the whole frame is 7 bytes more than it says (R143). -/
def gathered (frame : List Byte) : Gathered :=
  if frame.length < 5 then .partly
  else if 56 < u8At frame 4 then .tooLong
  else if frame.length < 7 + u8At frame 4 then .partly
  else .whole

/-- A whole frame outside SERVING: the received check against the one formed (R144). -/
def State.completeFrame (s : State) (p : Port) (frame : List Byte) (seen : Findings) : State :=
  let n := u8At frame 4
  let code := frame.getD 1 0
  let formed := (crc16 (frame.take (5 + n))).toNat
  s.onFrame p n fun s =>
    if u16At frame (5 + n) = formed then
      s.takeFrame p code (BitVec.ofNat 16 (u16At frame 2)) ((frame.drop 5).take n) seen
    else s.checkFail p code formed

/-- The byte just added may complete the frame, or show it too long. -/
def State.gather (s : State) (p : Port) (frame : List Byte) (seen : Findings) : State :=
  match gathered frame with
  | .partly => s.setReceiver p (.collecting frame)
  | .tooLong => (s.lengthDiscard p).settle
  | .whole => (s.completeFrame p frame seen).settle

/-- The same in SERVING, where a whole frame is discarded unjudged (R149). -/
def State.gatherServing (s : State) (p : Port) (frame : List Byte) : State :=
  match gathered frame with
  | .partly => s.setReceiver p (.serving frame)
  | .tooLong => (s.lengthDiscard p).settle
  | .whole => (s.overrunDiscard p).settle

/-- One byte on a port's line (R145, R149). -/
def State.hear (s : State) (p : Port) (b : Byte) (seen : Findings) : State :=
  match (s.port p).receiver with
  | .listening => if b = 0xC5 then s.setReceiver p (.collecting [b]) else s
  | .collecting frame => s.gather p (frame ++ [b]) seen
  | .serving [] => if b = 0xC5 then s.setReceiver p (.serving [b]) else s
  | .serving (lead :: frame) => s.gatherServing p (lead :: frame ++ [b])
  | .answering _ => s

def execByteReceived (p : Port) (b : Byte) (seen : Findings) (s : State) : Host.Outcome State Fault Refusal :=
  .next (if s.phase = .running then s.hear p b seen else s)

end Sys2Proof.Machine
end

