-- ==== Sys2Proof/Machine/Dispatch.lean ====
section
/-! DEFINITION. The meaning of every command: one arm per row of spec/opcode_table.json. -/

namespace Sys2Proof.Machine

def exec (i : Instr) (s : State) : Host.Outcome State Fault Refusal :=
  match i with
  | .deckSummary port item payload => Sys2Proof.Machine.execDeckSummary port item payload s
  | .jackRead port item payload => Sys2Proof.Machine.execJackRead port item payload s
  | .sectorRead port item payload => Sys2Proof.Machine.execSectorRead port item payload s
  | .layerRead port item payload => Sys2Proof.Machine.execLayerRead port item payload s
  | .probeRead port item payload => Sys2Proof.Machine.execProbeRead port item payload s
  | .planRead port item payload => Sys2Proof.Machine.execPlanRead port item payload s
  | .planReadState port payload => Sys2Proof.Machine.execPlanReadState port payload s
  | .identity port item payload => Sys2Proof.Machine.execIdentity port item payload s
  | .strokeDemand port item payload => Sys2Proof.Machine.execStrokeDemand port item payload s
  | .strokeReport port item payload => Sys2Proof.Machine.execStrokeReport port item payload s
  | .strokeCancel port item payload => Sys2Proof.Machine.execStrokeCancel port item payload s
  | .stationView port item payload => Sys2Proof.Machine.execStationView port item payload s
  | .layerPlaced port item payload => Sys2Proof.Machine.execLayerPlaced port item payload s
  | .feedAdvice port item payload => Sys2Proof.Machine.execFeedAdvice port item payload s
  | .layerWithdraw port item payload => Sys2Proof.Machine.execLayerWithdraw port item payload s
  | .holdPlace port item payload => Sys2Proof.Machine.execHoldPlace port item payload s
  | .holdRelease port item payload => Sys2Proof.Machine.execHoldRelease port item payload s
  | .holdList port item payload => Sys2Proof.Machine.execHoldList port item payload s
  | .modeSet port item payload => Sys2Proof.Machine.execModeSet port item payload s
  | .survey port item payload => Sys2Proof.Machine.execSurvey port item payload s
  | .rodExtend port item payload => Sys2Proof.Machine.execRodExtend port item payload s
  | .jackSetExclude port item tail => Sys2Proof.Machine.execJackSetExclude port item tail s
  | .jackSetInclude port item tail => Sys2Proof.Machine.execJackSetInclude port item tail s
  | .jackSetClear port item tail => Sys2Proof.Machine.execJackSetClear port item tail s
  | .jackDefine port item tail => Sys2Proof.Machine.execJackDefine port item tail s
  | .jackUndefine port item tail => Sys2Proof.Machine.execJackUndefine port item tail s
  | .sectorDefine port item tail => Sys2Proof.Machine.execSectorDefine port item tail s
  | .sectorUndefine port item tail => Sys2Proof.Machine.execSectorUndefine port item tail s
  | .sectorBase port item payload => Sys2Proof.Machine.execSectorBase port item payload s
  | .planStage port item payload => Sys2Proof.Machine.execPlanStage port item payload s
  | .planApply port item payload => Sys2Proof.Machine.execPlanApply port item payload s
  | .silence port item payload => Sys2Proof.Machine.execSilence port item payload s
  | .configSave port item payload => Sys2Proof.Machine.execConfigSave port item payload s
  | .configSaveEnd readBackGood => Sys2Proof.Machine.execConfigSaveEnd readBackGood s
  | .configLoad port item payload => Sys2Proof.Machine.execConfigLoad port item payload s
  | .configLoadEnd storeIntact => Sys2Proof.Machine.execConfigLoadEnd storeIntact s
  | .configFactory port item payload => Sys2Proof.Machine.execConfigFactory port item payload s
  | .configFactoryEnd => Sys2Proof.Machine.execConfigFactoryEnd s
  | .clearDeck port item payload => Sys2Proof.Machine.execClearDeck port item payload s
  | .restart port item payload => Sys2Proof.Machine.execRestart port item payload s
  | .diagnose port item payload seen => Sys2Proof.Machine.execDiagnose port item payload seen s
  | .counters port item payload => Sys2Proof.Machine.execCounters port item payload s
  | .countersReadClear port item tail => Sys2Proof.Machine.execCountersReadClear port item tail s
  | .portSet port item payload => Sys2Proof.Machine.execPortSet port item payload s
  | .frameCheckFail port code item payload => Sys2Proof.Machine.execFrameCheckFail port code item payload s
  | .frameLengthDiscard port => Sys2Proof.Machine.execFrameLengthDiscard port s
  | .frameOverrunDiscard port => Sys2Proof.Machine.execFrameOverrunDiscard port s
  | .gapTimerExpiry port => Sys2Proof.Machine.execGapTimerExpiry port s
  | .answerSent port => Sys2Proof.Machine.execAnswerSent port s
  | .aliveTimerExpiry port => Sys2Proof.Machine.execAliveTimerExpiry port s
  | .grantExpiry jack => Sys2Proof.Machine.execGrantExpiry jack s
  | .probeSampleExpiry samples battery => Sys2Proof.Machine.execProbeSampleExpiry samples battery s
  | .maturityIntervalExpiry => Sys2Proof.Machine.execMaturityIntervalExpiry s
  | .holdLineChange low => Sys2Proof.Machine.execHoldLineChange low s
  | .holdFilterExpiry => Sys2Proof.Machine.execHoldFilterExpiry s
  | .deckClockAdvance => Sys2Proof.Machine.execDeckClockAdvance s
  | .powerOn => Sys2Proof.Machine.execPowerOn s
  | .powerFail => Sys2Proof.Machine.execPowerFail s
  | .resetLineLow => Sys2Proof.Machine.execResetLineLow s
  | .resetLineHigh => Sys2Proof.Machine.execResetLineHigh s
  | .runMarkBreak => Sys2Proof.Machine.execRunMarkBreak s
  | .startUpSequence retainedIntact storeIntact battery => Sys2Proof.Machine.execStartUpSequence retainedIntact storeIntact battery s
  | .byteReceived port byte seen => Sys2Proof.Machine.execByteReceived port byte seen s
  | .unknownRequestCode port code item payload => Sys2Proof.Machine.execUnknownRequestCode port code item payload s

end Sys2Proof.Machine
end

