-- ==== Sys2Proof/Safety.lean ====
section
/-! DEFINITION. What the manual promises of every state: the outputs follow their conditions, the mode matches the
deck, grants match the jacks, the hold set and the layer pool keep their form, flags follow maturity, and retained
memory mirrors the live deck. -/

namespace Sys2Proof.Machine

/-! ### Outputs -/

/-- Each PERMIT contact is closed exactly while its conditions hold (R127). -/
abbrev State.PermitsFollow (s : State) : Prop := s.permitA = s.permitOn .A ∧ s.permitB = s.permitOn .B

/-- The position lies within the cycle of the pattern playing (R157), and is 0 while none plays. -/
def Sounder.inCycle (o : Sounder) : Bool :=
  match o.playing with
  | some c => decide (o.positionMs < c.cycleMs)
  | none => o.positionMs == 0

/-- The sounder plays the highest true, unmuted condition while the module runs (R156), only true conditions are muted
(R159), and the position lies within the cycle of the pattern playing. -/
abbrev State.SounderFollows (s : State) : Prop :=
  s.sounder.playing = (if s.phase = .running then s.conditions.select s.sounder.muted else none) ∧
  s.sounder.muted.inter s.conditions = s.sounder.muted ∧ s.sounder.inCycle = true

/-! ### The mode (R106) -/

/-- The mode is SURVEY exactly while the deck is incomplete. -/
abbrev State.ModeMatches (s : State) : Prop := s.mode = .survey ↔ s.incomplete = true

/-! ### Grants (R81) -/

/-- A jack is GRANTED exactly when the table holds a grant for it, and the grant names the jack's station. -/
abbrev State.GrantsMatch (s : State) : Prop :=
  ∀ j : JackIx,
    ((s.jack j).live.state = .granted ↔ (s.grant? j).isSome = true) ∧
    ∀ g ∈ s.grant? j, g.station = (s.jack j).station

/-- While a load or a factory restore is in progress, port 4 is in SERVING, the deck is in SURVEY or READY and no grant
is live (R169). -/
abbrev State.LoadIsQuiet (s : State) : Prop :=
  s.storeOp = some .load ∨ s.storeOp = some .factory →
    (∃ frame, (s.port .console).receiver = .serving frame) ∧ s.mode.settingUp = true ∧ s.anyGrant = false

/-! ### The hold set (R114, R115, R121) -/

/-- The reason stands with the source (R115). -/
def Hold.kindOk (h : Hold) : Bool :=
  match h.reason with
  | .operator | .pump | .feed | .inspection | .weather | .other => h.source.isLink
  | .line => h.source == .line && h.qualifier == .none
  | .exposed | .ungrantedMove => h.source == .part
  | .crawlLimit => h.source == .part && h.qualifier == .none

/-- The part reasons (R115). -/
def partReasons : List HoldReason := [.line, .exposed, .ungrantedMove, .crawlLimit]

/-- At most 16 entries, at most 12 of link sources, no two of one source, reason and qualifier, every reason with its
source, and each part reason at most once. -/
abbrev HoldsLegal (holds : List Hold) : Prop :=
  holds.length ≤ 16 ∧ (holds.filter fun h => h.source.isLink).length ≤ 12 ∧
  holds.Pairwise (fun a b => a.names b.source b.reason b.qualifier = false) ∧
  (∀ h ∈ holds, h.kindOk = true) ∧
  ∀ r ∈ partReasons, (holds.filter fun h => h.reason == r).length ≤ 1

/-- The hold set and its retained copy are legal, and the LINE entry is there exactly while the filter is ASSERTED (R125),
never in the retained copy. -/
abbrev State.HoldsOk (s : State) : Prop :=
  HoldsLegal s.holds ∧ HoldsLegal s.retained.holds ∧
  (s.hasReason .line = true ↔ s.holdFilter = .asserted) ∧
  ∀ h ∈ s.retained.holds, h.reason ≠ .line

/-! ### The layer pool and the chains (R22, R27) -/

/-- The slots of the chains of some sectors. -/
def chainSlots (lives : List SectorLive) : List Slot := lives.flatMap fun v => v.chain.map Layer.slot

/-- Every slot is on the free list or in one chain, exactly once (R22). -/
abbrev PoolWhole (free : List Slot) (lives : List SectorLive) : Prop :=
  ∀ slot : Slot, (free ++ chainSlots lives).count slot = 1

/-- No chain is longer than 16, every layer carries its sector, and a sector that is not defined has no layers. -/
abbrev ChainsOk (sectors : Vector RetainedSector 24) : Prop :=
  ∀ k : SectorIx,
    sectors[k].live.chain.length ≤ 16 ∧ (∀ l ∈ sectors[k].live.chain, l.sector = k) ∧
    (sectors[k].defined = false → sectors[k].live.chain = [])

/-- What retained memory would keep of the sectors. -/
def State.sectorsKept (s : State) : Vector RetainedSector 24 := s.sectors.map fun k => ⟨k.defined, k.live⟩

/-- The pool and the chains of the live deck and of its retained copy. -/
abbrev State.PoolOk (s : State) : Prop :=
  PoolWhole s.freeList (s.sectorsKept.toList.map RetainedSector.live) ∧ ChainsOk s.sectorsKept ∧
  PoolWhole s.retained.freeList (s.retained.sectors.toList.map RetainedSector.live) ∧ ChainsOk s.retained.sectors

/-- A chain stands on an elevation without gap or overlap, each layer 200 to 4000 thick (R25, R27). -/
def standsOn (base : Nat) : List Layer → Bool
  | [] => true
  | l :: rest =>
    l.base == base && decide (base + 200 ≤ l.top) && decide (l.top ≤ base + 4000) && decide (l.top ≤ 2000000) &&
      standsOn l.top rest

/-- A sector's concrete: its hardened top in range, its chain on top of it, and no chain before it is based (R15). -/
abbrev SectorLive.Stands (v : SectorLive) : Prop :=
  v.hHard ≤ 2000000 ∧ standsOn v.hHard v.chain = true ∧ (v.based = false → v.chain = [])

abbrev State.ChainsStand (s : State) : Prop :=
  (∀ k : SectorIx, (s.sector k).live.Stands) ∧ ∀ k : SectorIx, s.retained.sectors[k].live.Stands

/-! ### Definitions (R1, R15, R169) -/

/-- Every jack that a configuration defines names a sector that it defines (R169). -/
abbrev Configuration.Consistent (c : Configuration) : Prop :=
  ∀ j : JackIx, ∀ d ∈ c.jacks[j], c.sectors[d.sector].isSome = true

/-- The configuration that a save in progress will store. -/
def State.savedConfiguration? (s : State) : Option Configuration :=
  match s.storeOp with
  | some (.save c _) => some c
  | some .load => none
  | some .factory => none
  | none => none

/-- A defined jack names a defined sector (R1), a record that is not defined is at its defaults (R1, R15), and the stored
configuration and one being saved are consistent. -/
abbrev State.DefinitionsOk (s : State) : Prop :=
  (∀ j : JackIx, (s.jack j).defined = true → (s.sector (s.jack j).sector).defined = true) ∧
  (∀ j : JackIx, (s.jack j).defined = false → s.jack j = Jack.undefined) ∧
  (∀ k : SectorIx, (s.sector k).defined = false → s.sector k = Sector.undefined) ∧
  s.store.contents.Consistent ∧ ∀ c ∈ s.savedConfiguration?, c.Consistent

/-! ### Plans and flags (R129, R26) -/

/-- Every value lies within its range (R129). -/
abbrev Plan.InRange (p : Plan) : Prop := ∀ n : Param, n.lowest ≤ p.get n ∧ p.get n ≤ n.highest

/-- The plan of a save in progress. -/
def State.savedPlan? (s : State) : Option Plan := s.savedConfiguration?.map Configuration.plan

/-- The active, staged, stored and saved plans. -/
abbrev State.PlansInRange (s : State) : Prop :=
  s.active.InRange ∧ s.staged.InRange ∧ s.store.contents.plan.InRange ∧ ∀ p ∈ s.savedPlan?, p.InRange

/-- Both flags of every layer in a chain are those of its maturity under the active plan (R26). -/
abbrev State.FlagsFollow (s : State) : Prop :=
  ∀ k : SectorIx, ∀ l ∈ (s.sector k).live.chain, l.refresh s.active = l

/-! ### Retained memory (R165) -/

/-- Retained memory holds the live deck as the last event left it, without the LINE entry. -/
abbrev State.RetainedMirrors (s : State) : Prop :=
  s.retained.jacks = s.jacks.map Jack.live ∧ s.retained.sectors = s.sectorsKept ∧
  s.retained.freeList = s.freeList ∧ s.retained.holds = s.holds.filter (fun h => h.reason != .line) ∧
  s.retained.crawlEntry = s.crawlEntry ∧ s.retained.planSerial = s.planSerial ∧ s.retained.counters = s.counters

/-! ### Ranges (R2, R15, R25, R46, R81, R110, R114, R129, R154, R161, R166) -/

/-- The fields of a jack record lie within the ranges of section 1.2. -/
abbrev JackLive.InRange (v : JackLive) : Prop :=
  v.height ≤ 2000000 ∧ v.rod ≤ 120000 ∧ (v.lastLength = 0 ∨ 50 ≤ v.lastLength ∧ v.lastLength ≤ 350) ∧
  (∀ t ∈ v.lastSecond, t ≤ clockTop) ∧ v.shortCount ≤ 3 ∧ v.strokeCount ≤ 65535 ∧ v.stallCount ≤ 65535

/-- The fields of a layer record lie within the ranges of section 2.2; its thickness is in `SectorLive.Stands`. -/
abbrev Layer.InRange (l : Layer) : Prop :=
  l.base ≤ 2000000 ∧ l.top ≤ 2000000 ∧ l.maturity ≤ 4000000 ∧ l.age ≤ 65535

/-- The live fields of a sector record lie within the ranges of section 1.9, and those of its layers within theirs. -/
abbrev SectorLive.InRange (v : SectorLive) : Prop :=
  v.hHard ≤ 2000000 ∧ v.placed ≤ 65535 ∧ v.retired ≤ 65535 ∧ ∀ l ∈ v.chain, l.InRange

/-- The windows and runs of a probe record lie within the ranges of section 3.1. -/
abbrev Probe.InRange (p : Probe) : Prop :=
  (∀ i : Fin 4, -300 ≤ p.window[i] ∧ p.window[i] ≤ 800) ∧ p.invalidRun ≤ 3 ∧ p.recoveryRun ≤ 3 ∧
  p.faultCount ≤ 65535

/-- The fields of a grant lie within the ranges of section 5.1. -/
abbrev Grant.InRange (g : Grant) : Prop :=
  50 ≤ g.length ∧ g.length ≤ 350 ∧ g.issued ≤ clockTop ∧ g.expires ≤ clockTop ∧ (g.mode = .rise ∨ g.mode = .crawl)

/-- The six counters of a port have 16 bits (R154). -/
abbrev PortCounters.InRange (k : PortCounters) : Prop :=
  k.good ≤ 65535 ∧ k.check ≤ 65535 ∧ k.gap ≤ 65535 ∧ k.length ≤ 65535 ∧ k.overrun ≤ 65535 ∧ k.refused ≤ 65535

/-- The eight deck counters have 32 bits (R161). -/
abbrev DeckCounters.InRange (c : DeckCounters) : Prop :=
  c.grantsIssued ≤ 4294967295 ∧ c.expiries ≤ 4294967295 ∧ c.lateReports ≤ 4294967295 ∧ c.ungrantedMoves ≤ 4294967295 ∧
  c.slips ≤ 4294967295 ∧ c.layersPlaced ≤ 4294967295 ∧ c.layersRetired ≤ 4294967295 ∧ c.layersWithdrawn ≤ 4294967295

/-- The contents of retained memory lie within their ranges, the deck clock and the stamp among them (R166). -/
abbrev RetainedCopy.InRange (m : RetainedCopy) : Prop :=
  (∀ j : JackIx, m.jacks[j].InRange) ∧ (∀ k : SectorIx, m.sectors[k].live.InRange) ∧
  (∀ h ∈ m.holds, h.placed ≤ clockTop) ∧ (∀ e ∈ m.crawlEntry, e ≤ 2000000) ∧ m.planSerial ≤ 65535 ∧
  m.counters.InRange ∧ m.stamp ≤ clockTop ∧ m.counter ≤ clockTop

/-- Every answer being sent fits its frame (R150, R151). -/
abbrev State.AnswersFit (s : State) : Prop :=
  ∀ (p : Port) (a : Answer), (s.port p).receiver = .answering a → a.payload.length ≤ 56

/-- The records of the deck, live and retained, the counters and the answers lie within their ranges. -/
abbrev State.RangesOk (s : State) : Prop :=
  (∀ j : JackIx, (s.jack j).live.InRange) ∧ (∀ k : SectorIx, (s.sector k).live.InRange) ∧
  (∀ n : ProbeIx, (s.probe n).InRange) ∧ (∀ j : JackIx, ∀ g ∈ s.grant? j, g.InRange) ∧
  (∀ h ∈ s.holds, h.placed ≤ clockTop) ∧ (∀ e ∈ s.crawlEntry, e ≤ 2000000) ∧ s.planSerial ≤ 65535 ∧
  s.counters.InRange ∧ (∀ p : Port, (s.port p).counters.InRange) ∧ s.retained.toRetainedCopy.InRange ∧ s.AnswersFit

/-! ### Commands as frames -/

/-- The fields of a request frame on a port. -/
structure Frame where
  port    : Port
  code    : Byte
  item    : Item
  payload : List Byte
deriving DecidableEq, Repr

/-- The frame whose completion a request row is; a DIAGNOSE row only for what it finds. -/
def frame? (seen : Findings) : Instr → Option Frame
  | .deckSummary p item payload => some ⟨p, 0x10, item, payload⟩
  | .jackRead p item payload => some ⟨p, 0x11, item, payload⟩
  | .sectorRead p item payload => some ⟨p, 0x12, item, payload⟩
  | .layerRead p item payload => some ⟨p, 0x13, item, payload⟩
  | .probeRead p item payload => some ⟨p, 0x14, item, payload⟩
  | .planRead p item payload => some ⟨p, 0x15, item, payload⟩
  | .planReadState p payload => some ⟨p, 0x15, 0, payload⟩
  | .identity p item payload => some ⟨p, 0x16, item, payload⟩
  | .strokeDemand p item payload => some ⟨p, 0x20, item, payload⟩
  | .strokeReport p item payload => some ⟨p, 0x21, item, payload⟩
  | .strokeCancel p item payload => some ⟨p, 0x22, item, payload⟩
  | .stationView p item payload => some ⟨p, 0x23, item, payload⟩
  | .layerPlaced p item payload => some ⟨p, 0x30, item, payload⟩
  | .feedAdvice p item payload => some ⟨p, 0x31, item, payload⟩
  | .layerWithdraw p item payload => some ⟨p, 0x32, item, payload⟩
  | .holdPlace p item payload => some ⟨p, 0x40, item, payload⟩
  | .holdRelease p item payload => some ⟨p, 0x41, item, payload⟩
  | .holdList p item payload => some ⟨p, 0x42, item, payload⟩
  | .modeSet p item payload => some ⟨p, 0x50, item, payload⟩
  | .survey p item payload => some ⟨p, 0x51, item, payload⟩
  | .rodExtend p item payload => some ⟨p, 0x52, item, payload⟩
  | .jackSetExclude p item tail => some ⟨p, 0x53, item, 1 :: tail⟩
  | .jackSetInclude p item tail => some ⟨p, 0x53, item, 2 :: tail⟩
  | .jackSetClear p item tail => some ⟨p, 0x53, item, 3 :: tail⟩
  | .jackDefine p item tail => some ⟨p, 0x54, item, 1 :: tail⟩
  | .jackUndefine p item tail => some ⟨p, 0x54, item, 2 :: tail⟩
  | .sectorDefine p item tail => some ⟨p, 0x55, item, 1 :: tail⟩
  | .sectorUndefine p item tail => some ⟨p, 0x55, item, 2 :: tail⟩
  | .sectorBase p item payload => some ⟨p, 0x56, item, payload⟩
  | .planStage p item payload => some ⟨p, 0x57, item, payload⟩
  | .planApply p item payload => some ⟨p, 0x58, item, payload⟩
  | .silence p item payload => some ⟨p, 0x59, item, payload⟩
  | .configSave p item payload => some ⟨p, 0x5A, item, payload⟩
  | .configLoad p item payload => some ⟨p, 0x5B, item, payload⟩
  | .configFactory p item payload => some ⟨p, 0x5C, item, payload⟩
  | .clearDeck p item payload => some ⟨p, 0x5D, item, payload⟩
  | .restart p item payload => some ⟨p, 0x5E, item, payload⟩
  | .diagnose p item payload found => if found = seen then some ⟨p, 0x5F, item, payload⟩ else none
  | .counters p item payload => some ⟨p, 0x60, item, payload⟩
  | .countersReadClear p item tail => some ⟨p, 0x60, item, 0 :: tail⟩
  | .portSet p item payload => some ⟨p, 0x61, item, payload⟩
  | .unknownRequestCode p code item payload => some ⟨p, code, item, payload⟩
  | .configSaveEnd _ | .configLoadEnd _ | .configFactoryEnd => none
  | .frameCheckFail _ _ _ _ | .frameLengthDiscard _ | .frameOverrunDiscard _ | .gapTimerExpiry _ | .answerSent _ => none
  | .aliveTimerExpiry _ | .grantExpiry _ | .probeSampleExpiry _ _ | .maturityIntervalExpiry => none
  | .holdLineChange _ | .holdFilterExpiry | .deckClockAdvance => none
  | .powerOn | .powerFail | .resetLineLow | .resetLineHigh | .runMarkBreak | .startUpSequence _ _ _ => none
  | .byteReceived _ _ _ => none

/-- Commands one after another, up to the first that does not complete. -/
def execAll : List Instr → State → Host.Outcome State Fault Refusal
  | [], s => .next s
  | c :: rest, s =>
    match exec c s with
    | .next t => execAll rest t
    | .fault r => .fault r
    | .refused r => .refused r

/-! ### What a frame and its answer do to the link -/

/-- The module runs and the port's receiver is LISTENING or COLLECTING. -/
abbrev State.Hears (s : State) (p : Port) : Prop := s.phase = .running ∧ (s.port p).receiver.open = true

/-- The counters of a port after a good frame with this answer (R144, R154). -/
def PortCounters.afterGood (k : PortCounters) (kind : AnswerKind) : PortCounters :=
  { k with
    good := sat16 (k.good + 1)
    refused := match kind with
      | .accept => k.refused
      | .refuse => sat16 (k.refused + 1) }

/-- Two states agree but for the ports, the alive timers and the outputs. -/
def State.SameDeck (t u : State) : Prop :=
  t = { u with
    ports := t.ports, aliveA := t.aliveA, aliveB := t.aliveB
    permitA := t.permitA, permitB := t.permitB, sounder := t.sounder }

/-- The outputs of `t` follow its conditions, the sounder going on from that of `u` (R127, R156, R159). -/
def State.OutputsFrom (t u : State) : Prop :=
  t.PermitsFollow ∧ t.sounder = u.sounder.reselect (t.phase = .running) t.conditions

/-- An outcome is a next state in which a good frame on port `p` has been answered with `a`: a station port is kept alive
for ALIVETO seconds, and the deck is as `u` has it. -/
def AnswersWith (o : Host.Outcome State Fault Refusal) (p : Port) (a : Answer) (s u : State) : Prop :=
  ∃ t, o = .next t ∧
    t.port p = { u.port p with receiver := .answering a, counters := (s.port p).counters.afterGood a.kind } ∧
    (∀ q, q ≠ p → t.port q = u.port q) ∧
    t.aliveA = (if p = .stationA then some s.active.aliveTo else u.aliveA) ∧
    t.aliveB = (if p = .stationB then some s.active.aliveTo else u.aliveB) ∧
    t.SameDeck u ∧ t.OutputsFrom u

/-- The command is a good frame on port `p`, answered with `a`; it keeps a station port alive for ALIVETO seconds and
leaves the deck as `u` has it. -/
def Answered (c : Instr) (p : Port) (a : Answer) (s u : State) : Prop := AnswersWith (exec c s) p a s u

/-- The command is refused with a code and a detail (R151), and changes nothing but its port's counters and alive timer. -/
def Refused (c : Instr) (p : Port) (request : Byte) (code detail : Nat) (s : State) : Prop :=
  Answered c p ⟨.refuse, request, be1 code ++ be2 detail⟩ s s

/-- The command is a good frame on port 4 that enters SERVING and leaves the deck as `u` has it. -/
def Served (c : Instr) (s u : State) : Prop :=
  ∃ t, exec c s = .next t ∧
    t.port .console =
      { u.port .console with receiver := .serving [], counters := (s.port .console).counters.afterGood .accept } ∧
    (∀ q, q ≠ .console → t.port q = u.port q) ∧ t.aliveA = u.aliveA ∧ t.aliveB = u.aliveB ∧
    t.SameDeck u ∧ t.OutputsFrom u

/-- The command completes, leaving `u` with its outputs driven. -/
def Leaves (c : Instr) (s u : State) : Prop := exec c s = .next u.settle

end Sys2Proof.Machine
end

