-- ==== Sys2Proof/WellFormed.lean ====
section
/-! DEFINITION. Which commands the module can meet: frames the frame format can carry, conversions in their span, timers
that exist, and codes on the right side of the request table. -/

namespace Sys2Proof

open Machine (Request)

/-- A payload the frame format can carry (R143). -/
def payloadOk (n : Nat) : Bool := decide (n ≤ 56)

/-- A conversion in the span of section 3.1. -/
def sampleOk (x : Int) : Bool := decide (-999 ≤ x) && decide (x ≤ 1999)

/-- A command the module can meet. Where a row fixes the first payload byte, the operand holds the rest. -/
def Instr.wellFormed : Instr → Bool
  | .deckSummary _ _ payload => payloadOk payload.length
  | .jackRead _ _ payload => payloadOk payload.length
  | .sectorRead _ _ payload => payloadOk payload.length
  | .layerRead _ _ payload => payloadOk payload.length
  | .probeRead _ _ payload => payloadOk payload.length
  | .planRead _ item payload => item != 0 && payloadOk payload.length
  | .planReadState _ payload => payloadOk payload.length
  | .identity _ _ payload => payloadOk payload.length
  | .strokeDemand _ _ payload => payloadOk payload.length
  | .strokeReport _ _ payload => payloadOk payload.length
  | .strokeCancel _ _ payload => payloadOk payload.length
  | .stationView _ _ payload => payloadOk payload.length
  | .layerPlaced _ _ payload => payloadOk payload.length
  | .feedAdvice _ _ payload => payloadOk payload.length
  | .layerWithdraw _ _ payload => payloadOk payload.length
  | .holdPlace _ _ payload => payloadOk payload.length
  | .holdRelease _ _ payload => payloadOk payload.length
  | .holdList _ _ payload => payloadOk payload.length
  | .modeSet _ _ payload => payloadOk payload.length
  | .survey _ _ payload => payloadOk payload.length
  | .rodExtend _ _ payload => payloadOk payload.length
  | .jackSetExclude _ _ tail => payloadOk (1 + tail.length)
  | .jackSetInclude _ _ tail => payloadOk (1 + tail.length)
  | .jackSetClear _ _ tail => payloadOk (1 + tail.length)
  | .jackDefine _ _ tail => payloadOk (1 + tail.length)
  | .jackUndefine _ _ tail => payloadOk (1 + tail.length)
  | .sectorDefine _ _ tail => payloadOk (1 + tail.length)
  | .sectorUndefine _ _ tail => payloadOk (1 + tail.length)
  | .sectorBase _ _ payload => payloadOk payload.length
  | .planStage _ _ payload => payloadOk payload.length
  | .planApply _ _ payload => payloadOk payload.length
  | .silence _ _ payload => payloadOk payload.length
  | .configSave _ _ payload => payloadOk payload.length
  | .configSaveEnd _ => true
  | .configLoad _ _ payload => payloadOk payload.length
  | .configLoadEnd _ => true
  | .configFactory _ _ payload => payloadOk payload.length
  | .configFactoryEnd => true
  | .clearDeck _ _ payload => payloadOk payload.length
  | .restart _ _ payload => payloadOk payload.length
  | .diagnose _ _ payload _ => payloadOk payload.length
  | .counters _ _ payload => payload.head? != some 0 && payloadOk payload.length
  | .countersReadClear _ _ tail => payloadOk (1 + tail.length)
  | .portSet _ _ payload => payloadOk payload.length
  | .frameCheckFail _ _ _ payload => payloadOk payload.length
  | .frameLengthDiscard _ => true
  | .frameOverrunDiscard _ => true
  | .gapTimerExpiry _ => true
  | .answerSent _ => true
  | .aliveTimerExpiry p => p.station?.isSome
  | .grantExpiry _ => true
  | .probeSampleExpiry samples _ => samples.toList.all sampleOk
  | .maturityIntervalExpiry => true
  | .holdLineChange _ => true
  | .holdFilterExpiry => true
  | .deckClockAdvance => true
  | .powerOn => true
  | .powerFail => true
  | .resetLineLow => true
  | .resetLineHigh => true
  | .runMarkBreak => true
  | .startUpSequence _ _ _ => true
  | .byteReceived _ _ _ => true
  | .unknownRequestCode _ code _ payload => (Request.ofCode? code).isNone && payloadOk payload.length

end Sys2Proof
end

