-- ==== Sys2Proof/Certificates/Slice0/Obligations.lean ====
section
/-! DEFINITION. The statements for the provers. Each says in its docstring which rules or sections of spec/ it formalises.
Expected deck states are written with the record updates and shared operations the meanings use; `Answered`, `Served`
and `Leaves` (Safety.lean) say what a frame does to the link and that the outputs follow. Each shared operation is spelled
by one statement, for every state:
  placePart, placeExposed, placeCrawlLimit, crawlAfter, reportEntry: ReportEntryOutcomes
  retireSector: RetirementRunsFromTheBottom; retireSectors and the flags and heights of a sector: RetirementKeepsDerivedValues
  interval: IntervalMaturesEveryChain; refreshAll, the plan's parameters: PlansAndFlagsStayRight
  deriveMode, passMode: ModeMatchesEveryStep; settle, reselect: OutputsFollowEveryStep
  commit, rewrite: RetainedMemoryMirrorsTheDeck; what a memory check says: DiagnoseAnswersWhatItFinds
  candidates: SpreadRankOrdersCandidates; grantLength: GrantLengthFollowsRoom; setSpeeds: PortSetHoldsTheSpeed
  the deck-wide values: SummaryIdentityListAndCountersAnswer; default records and State.reset: FirstStartUpGivesReset. -/

open Sys2Proof Sys2Proof.Machine

/-! ### The step -/

/-- A step takes the command at the front of the queue and runs it on the state with the queue's rest (log entry 2). -/
def Obligations.StepRunsFrontCommand : Prop :=
  ∀ (c : Instr) (rest : List Instr) (s : State),
    s.pending = c :: rest → step s = exec c { s with pending := rest }

/-- With no command waiting, a step is one millisecond of the pattern playing, and changes nothing else (the model's
choice, log entry 7). R157: what each pattern sounds at each millisecond of its cycle, by the divisor of its tone. -/
def Obligations.IdleStepPlaysTheSounder : Prop :=
  ([Condition.held, .level, .lag, .stall, .probe].map Condition.cycleMs = [1000, 1000, 5000, 10000, 30000]) ∧
  (∀ (ms : Nat) (muted : Conditions),
    let tone := fun c : Condition => (Sounder.mk (some c) ms muted).tone
    (ms < 1000 → tone .held = some (if ms < 500 then 155 else 207)) ∧
    (ms < 1000 → tone .level = if ms < 200 then some 124 else none) ∧
    (ms < 5000 → tone .lag = if ms < 1000 then some 249 else none) ∧
    (ms < 10000 → tone .stall = if ms < 150 ∨ 300 ≤ ms ∧ ms < 450 then some 178 else none) ∧
    (ms < 30000 → tone .probe = if ms < 300 then some 312 else none) ∧
    (Sounder.mk none ms muted).tone = none) ∧
  ∀ s : State, s.pending = [] →
    (s.sounder.playing = none → step s = .next s) ∧
    ∀ c, s.sounder.playing = some c →
      step s = .next { s with sounder := { s.sounder with positionMs := (s.sounder.positionMs + 1) % c.cycleMs } }

/-- Every command completes from every state, and none of them touches the queue: no command faults or is refused by the
model. -/
def Obligations.EveryCommandCompletes : Prop :=
  ∀ (c : Instr) (s : State), ∃ t, exec c s = .next t ∧ t.pending = s.pending

/-- Section 11.2, R171 and R172: the first start-up of a module whose store holds a configuration saved from the factory
image and whose retained memory was never written leaves State.reset, but for the two input lines and the queue. Sections
1.2, 1.9, 3.1 and 10.2, R1 and R24: what State.reset and the default records hold. That the battery was never low and that
HOLD and RESET are high is the model's choice (log entry 4). -/
def Obligations.FirstStartUpGivesReset : Prop :=
  (let live : JackLive := ⟨.undefined, 0, 0, 0, none, 0, false, false, 0, 0⟩
  let bare : SectorLive := ⟨false, 0, [], 0, 0⟩
  let zero : DeckCounters := ⟨0, 0, 0, 0, 0, 0, 0, 0⟩
  let kept : RetainedCopy :=
    { jacks := Vector.replicate 96 live, sectors := Vector.replicate 24 ⟨false, bare⟩, freeList := List.finRange 256
      holds := [], crawlEntry := none, planSerial := 0, counters := zero, stamp := 0, counter := 0, runMark := true }
  let image : Configuration :=
    ⟨Vector.replicate 96 none, Vector.replicate 24 none, Plan.factory, Vector.replicate 4 .b57600⟩
  JackLive.default = live ∧ Jack.undefined = ⟨.A, 0, 0, live⟩ ∧ SectorLive.default = bare ∧
  Sector.undefined = ⟨false, none, bare⟩ ∧ DeckCounters.zero = zero ∧ PortCounters.zero = ⟨0, 0, 0, 0, 0, 0⟩ ∧
  Probe.fresh = ⟨.new, #v[0, 0, 0, 0], 0, none, false, 0, 0, 0⟩ ∧ Configuration.factory = image ∧
  State.reset =
    { phase := .running, jacks := Vector.replicate 96 ⟨.A, 0, 0, live⟩
      sectors := Vector.replicate 24 ⟨false, none, bare⟩, freeList := List.finRange 256
      probes := Vector.replicate 12 Probe.fresh, sampleTimer := true, intervalTimer := true
      grants := Vector.replicate 96 none, mode := .ready, crawlEntry := none, holds := [], holdLow := false
      holdFilter := .undecided, holdTimer := true, aliveA := none, aliveB := none, permitA := false, permitB := false
      active := Plan.factory, staged := Plan.factory, planSerial := 0, planRejected := false
      ports := Vector.replicate 4 ⟨.listening, .b57600, .b57600, ⟨0, 0, 0, 0, 0, 0⟩⟩
      sounder := ⟨none, 0, ⟨false, false, false, false, false⟩⟩, counters := zero
      retained := ⟨kept, crc16 (Config.retainedLayout kept)⟩, store := ⟨image, crc16 (Config.storeLayout image)⟩
      storeBad := false, retainLost := true, storeOp := none, afterAnswer := .nothing, batteryLow := false
      resetLow := false, pending := [] }) ∧
  ∀ (s : State) (found intact : Bool) (battery : Nat),
    s.phase = .starting found → s.store = Store.holding Configuration.factory → s.retained.checkGood = false →
    2900 ≤ battery →
    exec (.startUpSequence intact true battery) s =
      .next { State.reset with holdLow := s.holdLow, resetLow := s.resetLow, pending := s.pending }

/-! ### Frames (chapter 8) -/

/-- Sections 0.5.3 and 8.5: multi-byte fields are sent most significant byte first, signed ones in two's complement, and
a field that is read gives back what was sent. R144: the check is a CRC with no reflection and no inversion, sent high byte
first, so that the same CRC over a frame and its check is 0, with the rule's reference value. R143 and R150: the fields of
a request frame and of an answer frame, in their order. An absent 4-byte field is sent with every byte 0xFF (R151), counts
saturate at the top of their 16 or 32 bits, and an index is the number of its object. -/
def Obligations.FieldsAndCheckAreBigEndian : Prop :=
  (∀ x : Nat, be1 x = [BitVec.ofNat 8 x] ∧ be4? (some x) = be4 x ∧ sat16 x = min x 65535 ∧ sat32 x = min x 4294967295) ∧
  (∀ x : Int, be4i? (some x) = be4i x) ∧ be4i? none = be4? none ∧
  (∀ (payload : List Byte) (i : Nat), u8At payload i = (payload.getD i 0).toNat) ∧
  (∀ (n k : Nat) (i : Fin n), index? n k = some i ↔ i.val = k) ∧
  (∀ x : Nat, x < 65536 → ∃ hi lo : Byte, be2 x = [hi, lo] ∧ hi.toNat = x / 256 ∧ lo.toNat = x % 256 ∧
    u16At (be2 x) 0 = x) ∧
  (∀ x : Nat, x < 4294967296 → be4 x = be2 (x / 65536) ++ be2 (x % 65536) ∧ u32At (be4 x) 0 = x) ∧
  (∀ x : Int, -2147483648 ≤ x → x < 2147483648 → s32At (be4i x) 0 = x) ∧
  (∀ x : Int, -32768 ≤ x → x < 0 → be2i x = be2 (x + 65536).toNat) ∧
  be4? none = [0xFF, 0xFF, 0xFF, 0xFF] ∧
  (∀ bytes : List Byte, crcBytes bytes = be2 (crc16 bytes).toNat ∧ crc16 (bytes ++ crcBytes bytes) = 0) ∧
  (∀ (code : Byte) (item : Item) (payload : List Byte),
    let body := [0xC5, code] ++ be2 item.toNat ++ be1 payload.length ++ payload
    requestFrame code item payload = body ++ crcBytes body) ∧
  (∀ (kind : AnswerKind) (code : Byte) (payload : List Byte),
    let body := [0xC5, match kind with | .accept => 0x0A | .refuse => 0x0E, code] ++ be1 payload.length ++ payload
    (Answer.mk kind code payload).frame = body ++ crcBytes body) ∧
  crc16 [0x31, 0x32, 0x33, 0x34, 0x35, 0x36, 0x37, 0x38, 0x39] = 0x29B1

/-- Sections 8.2 to 8.4: a request row of the table is what happens at the last byte of its frame. From a port in
LISTENING, the frame's bytes one at a time leave what the row's command leaves, whatever the outcome of the request. R144:
with any other check bytes than those formed, they leave what the row of a bad check leaves. -/
def Obligations.BytesMakeTheFrame : Prop :=
  (∀ (c : Instr) (seen : Findings) (f : Frame) (s : State),
    frame? seen c = some f → c.wellFormed = true → s.phase = .running → (s.port f.port).receiver = .listening →
    execAll ((requestFrame f.code f.item f.payload).map fun b => .byteReceived f.port b seen) s = exec c s) ∧
  ∀ (p : Port) (code : Byte) (item : Item) (payload check : List Byte) (seen : Findings) (s : State),
    payload.length ≤ 56 → check.length = 2 → s.phase = .running → (s.port p).receiver = .listening →
    let body := [0xC5, code] ++ be2 item.toNat ++ be1 payload.length ++ payload
    check ≠ crcBytes body →
    execAll ((body ++ check).map fun b => .byteReceived p b seen) s = exec (.frameCheckFail p code item payload) s

/-- R148, R151, R154: a good frame is tested in order. An unknown code is refused UNKNOWN with the code received, a known
request from a port the table does not allow ROLE with the port number, and one with a wrong payload length LENGTH with
that length; nothing changes but the port's counters and alive timer. Sections 0.3 and 8.4: the ports and their stations, and
the codes, ports and payload lengths of the table. Sections 1.4, 1.7 and 1.10: a frame of JACK SET, JACK DEFINE or SECTOR
DEFINE whose action byte is that of no row comes byte by byte, and is refused ITEM for an item that
the first test of its table rejects, else RANGE with detail 1 (log entry 5). -/
def Obligations.FramesAreTestedBeforeService : Prop :=
  (let every := [Port.stationA, .stationB, .feed, .console]
  let stations := [Port.stationA, .stationB]
  every.map Port.number = [1, 2, 3, 4] ∧ every.map Port.ix = [0, 1, 2, 3] ∧
  every.map Port.station? = [some .A, some .B, none, none] ∧
  let table : List (Byte × List Port × List Nat) :=
    [(0x10, every, [0]), (0x11, every, [0]), (0x12, every, [0]), (0x13, every, [1]), (0x14, every, [0]),
      (0x15, every, [0]), (0x16, every, [0]), (0x20, stations, [2]),
      (0x21, stations, (List.range 16).map fun n => 3 * n + 3), (0x22, stations, (List.range 16).map fun n => n + 1),
      (0x23, stations, [1]), (0x30, [.feed], [3]), (0x31, [.feed], [0]), (0x32, [.feed], [0]), (0x40, every, [3]),
      (0x41, every, [4]), (0x42, every, [1])] ++
    [(0x50, 1), (0x51, 5), (0x52, 2), (0x53, 1), (0x54, 4), (0x55, 2), (0x56, 4), (0x57, 4), (0x58, 0), (0x59, 0),
      (0x5A, 0), (0x5B, 0), (0x5C, 0), (0x5D, 0), (0x5E, 0), (0x5F, 0), (0x60, 1), (0x61, 1)].map
        fun row : Byte × Nat => (row.1, [Port.console], [row.2])
  (∀ code : Byte, Request.ofCode? code = none ↔ ∀ row ∈ table, row.1 ≠ code) ∧
  ∀ row ∈ table, ∃ r, Request.ofCode? row.1 = some r ∧ (∀ p, r.allowed p = true ↔ p ∈ row.2.1) ∧
    ∀ n, r.lengthOk n = true ↔ n ∈ row.2.2) ∧
  (∀ (p : Port) (code : Byte) (item : Item) (payload : List Byte) (s : State),
    Request.ofCode? code = none → payload.length ≤ 56 → s.Hears p →
    Answered (.unknownRequestCode p code item payload) p ⟨.refuse, code, be1 0x02 ++ be2 code.toNat⟩ s s) ∧
  (∀ (c : Instr) (seen : Findings) (f : Frame) (r : Request) (s : State),
    frame? seen c = some f → c.wellFormed = true → Request.ofCode? f.code = some r → s.Hears f.port →
    (r.allowed f.port = false →
      Answered c f.port ⟨.refuse, f.code, be1 0x03 ++ be2 f.port.number⟩ s s) ∧
    (r.allowed f.port = true → r.lengthOk f.payload.length = false →
      Answered c f.port ⟨.refuse, f.code, be1 0x09 ++ be2 f.payload.length⟩ s s)) ∧
  ∀ (item : Item) (action : Byte) (tail : List Byte) (seen : Findings) (s : State),
    s.phase = .running → (s.port .console).receiver = .listening →
    let sent := fun code : Byte =>
      execAll ((requestFrame code item (action :: tail)).map fun b => .byteReceived .console b seen) s
    let refused := fun (code : Byte) (itemOk : Prop) =>
      (itemOk → AnswersWith (sent code) .console ⟨.refuse, code, [0x05, 0, 1]⟩ s s) ∧
      (¬ itemOk → AnswersWith (sent code) .console ⟨.refuse, code, be1 0x04 ++ be2 item.toNat⟩ s s)
    (action ≠ 1 → action ≠ 2 → action ≠ 3 → tail.length = 0 →
      refused 0x53 (∃ j : JackIx, item.toNat = j.val ∧ (s.jack j).live.state ≠ .undefined)) ∧
    (action ≠ 1 → action ≠ 2 → tail.length = 3 → refused 0x54 (item.toNat < 96)) ∧
    (action ≠ 1 → action ≠ 2 → tail.length = 1 → refused 0x55 (item.toNat < 24))

/-- Section 8.2 (R144, Different): a frame whose check differs is counted in CHECK alone and answered REFUSE CHECK with
the check the module formed; nothing it names changes and the alive timer keeps its expiry. R145 and R149: on a port in
ANSWERING it is lost, and in SERVING it is discarded with its check untested. -/
def Obligations.BadChecksAreRefused : Prop :=
  ∀ (p : Port) (code : Byte) (item : Item) (payload : List Byte) (s : State), payload.length ≤ 56 →
    let body := [0xC5, code] ++ be2 item.toNat ++ be1 payload.length ++ payload
    let counts := (s.port p).counters
    (s.Hears p →
      Leaves (.frameCheckFail p code item payload) s
        (s.setPort p { s.port p with
          receiver := .answering ⟨.refuse, code, be1 0x01 ++ be2 (crc16 body).toNat⟩
          counters := { counts with check := sat16 (counts.check + 1) } })) ∧
    (s.phase = .running → ∀ a, (s.port p).receiver = .answering a → Leaves (.frameCheckFail p code item payload) s s) ∧
    (s.phase = .running → ∀ partly, (s.port p).receiver = .serving partly →
      Leaves (.frameCheckFail p code item payload) s
        (s.setPort p { s.port p with
          receiver := .serving [], counters := { counts with overrun := sat16 (counts.overrun + 1) } }))

/-- R145 to R147 and R149: a request frame on a port in ANSWERING is lost and counted nowhere, and one that completes in
SERVING is discarded. The three discards each count once in their own counter, send no answer and keep the alive timer; a
port gathering a frame goes back to its lead search, in SERVING too. That FRAME_LENGTH_DISCARD is taken from LISTENING as
well as while a frame is being gathered is the model's choice (log entry 18). -/
def Obligations.DiscardsAreCounted : Prop :=
  (∀ (c : Instr) (seen : Findings) (f : Frame) (s : State),
    frame? seen c = some f → c.wellFormed = true → s.phase = .running →
    (∀ a, (s.port f.port).receiver = .answering a → Leaves c s s) ∧
    ∀ partly, (s.port f.port).receiver = .serving partly →
      Leaves c s (s.setPort f.port { s.port f.port with
        receiver := .serving []
        counters := { (s.port f.port).counters with overrun := sat16 ((s.port f.port).counters.overrun + 1) } })) ∧
  ∀ (p : Port) (s : State), s.phase = .running →
    (∀ partly, (s.port p).receiver = .collecting partly →
      Leaves (.gapTimerExpiry p) s (s.setPort p { s.port p with
        receiver := .listening
        counters := { (s.port p).counters with gap := sat16 ((s.port p).counters.gap + 1) } })) ∧
    (∀ lead partly, (s.port p).receiver = .serving (lead :: partly) →
      Leaves (.gapTimerExpiry p) s (s.setPort p { s.port p with
        receiver := .serving []
        counters := { (s.port p).counters with gap := sat16 ((s.port p).counters.gap + 1) } })) ∧
    ((s.port p).receiver.open = true →
      Leaves (.frameLengthDiscard p) s (s.setPort p { s.port p with
        receiver := .listening
        counters := { (s.port p).counters with length := sat16 ((s.port p).counters.length + 1) } })) ∧
    (∀ partly, (s.port p).receiver = .serving partly →
      Leaves (.frameLengthDiscard p) s (s.setPort p { s.port p with
        receiver := .serving []
        counters := { (s.port p).counters with length := sat16 ((s.port p).counters.length + 1) } })) ∧
    (∀ a, (s.port p).receiver = .answering a → Leaves (.frameLengthDiscard p) s s) ∧
    ∀ partly, (s.port p).receiver = .serving partly →
      Leaves (.frameOverrunDiscard p) s (s.setPort p { s.port p with
        receiver := .serving []
        counters := { (s.port p).counters with overrun := sat16 ((s.port p).counters.overrun + 1) } })

/-- R145, R147, R149: in LISTENING every byte but the lead is skipped and a lead starts a frame; in COLLECTING a byte that
neither completes the frame nor is a length above 56 is gathered, whatever its value, and a length above 56 discards the
frame and counts it in LENGTH; in ANSWERING a byte is lost. R144: a byte that completes a frame whose last two bytes differ
from the CRC formed over the others has it refused CHECK with that CRC, counted in CHECK alone and the alive timer kept. SERVING searches for a lead, gathers and discards for length
alike, and a byte that completes a frame there discards it unjudged and counts it in OVERRUN. Nothing else changes. -/
def Obligations.BytesAreGathered : Prop :=
  ∀ (p : Port) (b : Byte) (seen : Findings) (s : State), s.phase = .running →
    let goesOn := fun partly : List Byte =>
      partly.length < 4 ∨
        4 < partly.length ∧ (partly.getD 4 0).toNat ≤ 56 ∧ partly.length + 1 < 7 + (partly.getD 4 0).toNat ∨
        partly.length = 4 ∧ b.toNat ≤ 56
    let counts := (s.port p).counters
    ((s.port p).receiver = .listening → b ≠ 0xC5 → exec (.byteReceived p b seen) s = .next s) ∧
    ((s.port p).receiver = .listening → b = 0xC5 →
      exec (.byteReceived p b seen) s = .next (s.setPort p { s.port p with receiver := .collecting [0xC5] })) ∧
    (∀ partly : List Byte, (s.port p).receiver = .collecting partly →
      (goesOn partly →
        exec (.byteReceived p b seen) s =
          .next (s.setPort p { s.port p with receiver := .collecting (partly ++ [b]) })) ∧
      (partly.length = 4 → 56 < b.toNat →
        Leaves (.byteReceived p b seen) s (s.setPort p { s.port p with
          receiver := .listening, counters := { counts with length := sat16 (counts.length + 1) } })) ∧
      let frame := partly ++ [b]
      let formed := crc16 (frame.take (frame.length - 2))
      (4 < partly.length → (partly.getD 4 0).toNat ≤ 56 → frame.length = 7 + (partly.getD 4 0).toNat →
        frame.drop (frame.length - 2) ≠ be2 formed.toNat →
        Leaves (.byteReceived p b seen) s (s.setPort p { s.port p with
          receiver := .answering ⟨.refuse, partly.getD 1 0, be1 0x01 ++ be2 formed.toNat⟩
          counters := { counts with check := sat16 (counts.check + 1) } }))) ∧
    (∀ a, (s.port p).receiver = .answering a → exec (.byteReceived p b seen) s = .next s) ∧
    ((s.port p).receiver = .serving [] → b ≠ 0xC5 → exec (.byteReceived p b seen) s = .next s) ∧
    ((s.port p).receiver = .serving [] → b = 0xC5 →
      exec (.byteReceived p b seen) s = .next (s.setPort p { s.port p with receiver := .serving [0xC5] })) ∧
    ∀ partly : List Byte, (s.port p).receiver = .serving partly → partly ≠ [] →
      (goesOn partly →
        exec (.byteReceived p b seen) s =
          .next (s.setPort p { s.port p with receiver := .serving (partly ++ [b]) })) ∧
      (partly.length = 4 → 56 < b.toNat →
        Leaves (.byteReceived p b seen) s (s.setPort p { s.port p with
          receiver := .serving [], counters := { counts with length := sat16 (counts.length + 1) } })) ∧
      (4 < partly.length → (partly.getD 4 0).toNat ≤ 56 → partly.length + 1 = 7 + (partly.getD 4 0).toNat →
        Leaves (.byteReceived p b seen) s (s.setPort p { s.port p with
          receiver := .serving [], counters := { counts with overrun := sat16 (counts.overrun + 1) } }))

/-- R145, R142, R170, R164: when the last byte of an answer has left, the receiver is LISTENING and the speed held for the
port is its line's; after RESTART or a DIAGNOSE that found retained memory bad, the start-up sequence is next, with both
contacts open and the sounder silent (log entry 10). Until the sequence runs, the deck, the probes, the plans, retained
memory and the store stay as they were, but that a save in progress, which no reachable state has then, leaves its store
with a bad check. -/
def Obligations.AnswerSentReopensThePort : Prop :=
  ∀ (p : Port) (a : Answer) (s : State), s.phase = .running → (s.port p).receiver = .answering a →
    ∃ t, exec (.answerSent p) s = .next t ∧
      t.port p = { s.port p with receiver := .listening, lineSpeed := (s.port p).speed } ∧
      (∀ q, q ≠ p → t.port q = s.port q) ∧
      t.phase = (if p ≠ .console then .running else
        match s.afterAnswer with
        | .nothing => .running
        | .restart => .starting false
        | .retainedLoss => .starting true) ∧
      (t.phase ≠ .running → t.permitA = false ∧ t.permitB = false ∧ t.sounder.tone = none ∧
        t = { s with
          phase := t.phase, ports := t.ports, afterAnswer := .nothing, storeOp := none
          store := match s.storeOp with
            | some (.save _ _) => s.store.spoil
            | _ => s.store
          permitA := false, permitB := false, sounder := t.sounder }) ∧
      (t.phase = .running → t = { s with ports := t.ports }.settle)

/-! ### Reads -/

/-- R14: JACK READ answers the whole record in 30 bytes, and changes nothing; an item outside 0..95 is refused ITEM. The
state codes are those of section 1.3. -/
def Obligations.JackReadAnswersTheRecord : Prop :=
  [JackState.undefined, .unsurveyed, .ready, .granted, .stalled, .slip, .rodEnd, .excluded].map JackState.code =
    [0, 1, 2, 3, 4, 5, 6, 7] ∧
  (∀ (p : Port) (item : Item) (s : State), s.Hears p → 96 ≤ item.toNat →
    Refused (.jackRead p item []) p 0x11 0x04 item.toNat s) ∧
  ∀ (p : Port) (item : Item) (j : JackIx) (s : State), s.Hears p → item.toNat = j.val →
    let r := s.jack j
    let v := r.live
    Answered (.jackRead p item []) p ⟨.accept, 0x11,
      be1 (if v.state = .undefined then 0 else 1) ++ be1 (match r.station with | .A => 0 | .B => 1) ++
      be1 r.group.val ++ be1 r.sector.val ++ be1 (spreadRank j) ++ be1 v.state.code ++
      be1 ((if v.overrun then 1 else 0) + (if v.ungranted then 2 else 0) +
        (if v.rod < s.active.lnom + 500 then 4 else 0) + (if r.levelBearing then 8 else 0)) ++
      be4 v.height ++ be4 v.rod ++ be2 v.lastLength ++ be4? v.lastSecond ++ be1 v.shortCount ++
      be2 v.strokeCount ++ be2 v.stallCount ++ be4? ((s.grant? j).map Grant.expires)⟩ s s

/-- R19 and R42: SECTOR READ answers the record with its derived values in 35 bytes, absent ones as 0xFFFFFFFF, and LAYER
READ one page of a chain; neither changes anything. An item outside 0..23 is refused ITEM, and a page above 3 RANGE. -/
def Obligations.SectorAndLayerReadsAnswer : Prop :=
  (∀ (p : Port) (item : Item) (page : Byte) (s : State), s.Hears p →
    (24 ≤ item.toNat → Refused (.sectorRead p item []) p 0x12 0x04 item.toNat s ∧
      Refused (.layerRead p item [page]) p 0x13 0x04 item.toNat s) ∧
    (item.toNat < 24 → 3 < page.toNat → Refused (.layerRead p item [page]) p 0x13 0x05 1 s)) ∧
  ∀ (p : Port) (item : Item) (k : SectorIx) (s : State), s.Hears p → item.toNat = k.val →
    let r := s.sector k
    let v := r.live
    let here := r.defined && v.based
    let members := s.jacks.toList.filter fun j => j.live.state != .undefined && j.sector == k
    Answered (.sectorRead p item []) p ⟨.accept, 0x12,
      be1 (if r.defined then 1 else 0) ++ be1 (match r.probe with | some n => n.val | none => 0xFF) ++
      be1 (if v.based then 1 else 0) ++
      be1 ((if s.overfill k then 1 else 0) + (if s.lag k then 2 else 0) + (if s.exposed k then 4 else 0) +
        (if s.fillStarved k then 8 else 0)) ++
      be1 v.chain.length ++ be1 members.length ++ be1 (members.filter Jack.levelBearing).length ++ be4 v.hHard ++
      be4? (if here then some r.fill else none) ++ be4? (if here then some r.eRel else none) ++
      be4? (s.dLow k) ++ be4? (s.dHigh k) ++ be4i? (s.dMax k) ++ be2 v.placed ++ be2 v.retired⟩ s s ∧
    ∀ page : Byte, page.toNat ≤ 3 →
      let chain := if here then v.chain else []
      let shown := (chain.drop (4 * page.toNat)).take 4
      Answered (.layerRead p item [page]) p ⟨.accept, 0x13,
        be1 chain.length ++ be1 page.toNat ++ be1 shown.length ++ be4? (shown.head?.map Layer.base) ++
        shown.flatMap fun l : Layer =>
          be1 l.slot.val ++ be2 (l.top - l.base) ++
          be1 (l.mixClass.val + (if l.released then 4 else 0) + (if l.stuck then 8 else 0)) ++
          be4 l.maturity ++ be2 l.age⟩ s s

/-- R54, R139 and R140: PROBE READ answers a probe record in 20 bytes, PLAN READ one parameter in 17 bytes or the state of
the Plan Unit in 5; none changes anything. An item that names no probe, or no parameter and not 0, is refused ITEM.
The checks are those of R132, and the first that fails is sent. -/
def Obligations.ProbeAndPlanReadsAnswer : Prop :=
  (∀ (p : Port) (item : Item) (s : State), s.Hears p →
    (12 ≤ item.toNat → Refused (.probeRead p item []) p 0x14 0x04 item.toNat s) ∧
    (25 < item.toNat → Refused (.planRead p item []) p 0x15 0x04 item.toNat s)) ∧
  ∀ (p : Port) (item : Item) (s : State), s.Hears p →
    (∀ n : ProbeIx, item.toNat = n.val →
      let r := s.probe n
      Answered (.probeRead p item []) p ⟨.accept, 0x14,
        be1 (match r.state with | .new => 0 | .good => 1 | .fault => 2) ++ be2i r.average ++ be2i r.window[0] ++
        be2i r.window[1] ++ be2i r.window[2] ++ be2i r.window[3] ++ be1 r.writeIndex.val ++ be2i (r.lastSample.getD (-32768)) ++
        be1 (if r.lastValid then 1 else 0) ++ be1 r.invalidRun ++ be1 r.recoveryRun ++ be2 r.faultCount ++
        be1 (s.sectors.toList.filter fun k => k.defined && k.probe == some n).length⟩ s s) ∧
    (∀ n : Param, item.toNat = n.val + 1 →
      Answered (.planRead p item []) p ⟨.accept, 0x15,
        be4i (s.active.get n) ++ be4i (s.staged.get n) ++ be4i n.lowest ++ be4i n.highest ++
        be1 (if s.staged.get n = s.active.get n then 0 else 1)⟩ s s) ∧
    let q := s.staged
    let checks : List Bool :=
      [decide (q.lnom ≤ q.tol), decide (q.crawlStroke ≤ q.lnom), decide (q.emb + q.freeboard + 2000 ≤ q.hf),
        decide (q.rel 0 + 10000 ≤ q.stk 0), decide (q.rel 1 + 10000 ≤ q.stk 1), decide (q.rel 2 + 10000 ≤ q.stk 2),
        decide (q.rel 3 + 10000 ≤ q.stk 3)]
    Answered (.planReadState p []) p ⟨.accept, 0x15,
      be2 s.planSerial ++ be1 (if s.planRejected then 1 else 0) ++
      be1 ((List.finRange 25).filter fun m => decide (q.get m ≠ s.active.get m)).length ++
      be1 (match checks.findIdx? (fun ok => !ok) with | some i => i + 1 | none => 0)⟩ s s

/-- R160, R155, R122 and R162: DECK SUMMARY, IDENTITY, HOLD LIST and COUNTERS pages 1 and 2 answer what their tables give,
from the state as it stands; none changes anything, and a page above 2 is refused RANGE. R65 to R67 and R78: h_min and
h_max are the lowest and highest heights of the level-bearing set, the spread their difference, LEVEL a spread above
TOL + LALM, and the lowest D_max that of the considered sectors, with the lowest index that has it. R53, R160 and R81: the
PROBE flag is a probe in FAULT, the STALL flag a jack STALLED or SLIP, and the live grants of a station those the table
holds for it. The codes of modes, hold sources, reasons and qualifiers are those of section 6.1, R115 and R122, and the
design revision is 1..255 (R155). -/
def Obligations.SummaryIdentityListAndCountersAnswer : Prop :=
  (∀ s : State,
    let bearing := fun j : JackIx =>
      (s.jack j).live.state ∈ [JackState.ready, .granted, .stalled, .slip, .rodEnd]
    let height := fun j : JackIx => (s.jack j).live.height
    (∀ m, s.hMin = some m ↔ (∃ j, bearing j ∧ height j = m) ∧ ∀ j, bearing j → m ≤ height j) ∧
    (∀ m, s.hMax = some m ↔ (∃ j, bearing j ∧ height j = m) ∧ ∀ j, bearing j → height j ≤ m) ∧
    (∀ d, s.spread = some d ↔ ∃ lo hi, s.hMin = some lo ∧ s.hMax = some hi ∧ d = hi - lo) ∧
    (s.levelAlert = true ↔ ∃ d, s.spread = some d ∧ s.active.tol + s.active.lalm < d) ∧
    (∀ k, s.considered k = true ↔
      (s.sector k).defined = true ∧ (s.sector k).live.based = true ∧ ∃ d, s.dLow k = some d) ∧
    (s.lowestDMax = none ↔ ∀ k, s.considered k = false) ∧
    (∀ d k, s.lowestDMax = some (d, k) ↔ s.considered k = true ∧ s.dMax k = some d ∧
      ∀ i e, s.considered i = true → s.dMax i = some e → d < e ∨ d = e ∧ k ≤ i) ∧
    s.starvedCount = ((List.finRange 24).filter fun k => s.considered k && s.fillStarved k).length ∧
    (s.anyOverfill = true ↔ ∃ k, s.overfill k = true) ∧ (s.anyLag = true ↔ ∃ k, s.lag k = true) ∧
    (s.anyExposed = true ↔ ∃ k, s.exposed k = true) ∧
    (s.probeCondition = true ↔ ∃ n, (s.probe n).state = .fault) ∧
    (s.anyStall = true ↔ ∃ j, (s.jack j).live.state = .stalled ∨ (s.jack j).live.state = .slip) ∧
    ∀ st, s.liveGrants st =
      ((List.finRange 96).filter fun j : JackIx => (s.grant? j).any fun g => g.station == st).length) ∧
  [Mode.survey, .ready, .rise, .crawl].map Mode.code = [0, 1, 2, 3] ∧
  [HoldSource.line, .stationA, .stationB, .feed, .console, .part].map HoldSource.code = [0, 1, 2, 3, 4, 5] ∧
  [HoldReason.operator, .pump, .feed, .inspection, .weather, .other, .line, .exposed, .ungrantedMove, .crawlLimit].map
    HoldReason.code = [1, 2, 3, 4, 5, 6, 16, 17, 18, 19] ∧
  (∀ q : Qualifier, (q.kindCode, q.indexCode) =
    match q with | .none => (0, 0xFF) | .jack j => (1, j.val) | .sector k => (2, k.val)) ∧
  1 ≤ Config.designRevision ∧ Config.designRevision ≤ 255 ∧
  (∀ (p : Port) (item : Item) (page : Byte) (s : State), s.Hears p → 2 < page.toNat →
    Refused (.holdList p item [page]) p 0x42 0x05 1 s ∧
    (p = .console → Refused (.counters p item [page]) p 0x60 0x05 1 s)) ∧
  ∀ (p : Port) (item : Item) (s : State), s.Hears p →
    Answered (.deckSummary p item []) p ⟨.accept, 0x10,
      be1 s.mode.code ++ be1 s.holds.length ++
      be2 ((if s.levelAlert then 1 else 0) + (if s.anyLag then 2 else 0) + (if s.anyOverfill then 4 else 0) +
        (if s.anyExposed then 8 else 0) + (if s.probeCondition then 16 else 0) + (if s.anyStall then 32 else 0) +
        (if s.planRejected then 64 else 0) + (if s.storeBad then 128 else 0) + (if s.retainLost then 256 else 0) +
        (if s.batteryLow then 512 else 0)) ++
      be4? s.hMin ++ be4? s.hMax ++ be2 (match s.spread with | some d => min d 65534 | none => 65535) ++
      be4i? (s.lowestDMax.map Prod.fst) ++ be1 (match s.lowestDMax with | some d => d.2.val | none => 0xFF) ++
      be1 s.starvedCount ++ be1 (s.liveGrants .A) ++ be1 (s.liveGrants .B) ++ be4 s.retained.counter ++
      be2 s.planSerial⟩ s s ∧
    Answered (.identity p item []) p ⟨.accept, 0x16,
      [0x0D, 0x5A, 0x09, 0x60] ++ be1 Config.designRevision ++
      be1 (if s.storeOp.isSome then 2 else if s.storeBad then 1 else 0) ++ be1 p.number ++
      be1 (s.port p).speed.code⟩ s s ∧
    (∀ page : Byte, page.toNat ≤ 2 →
      let shown := (s.holds.drop (6 * page.toNat)).take 6
      Answered (.holdList p item [page]) p ⟨.accept, 0x42,
        be1 s.holds.length ++ be1 page.toNat ++ be1 shown.length ++
        shown.flatMap fun h =>
          be1 h.source.code ++ be1 h.reason.code ++ be1 h.qualifier.kindCode ++ be1 h.qualifier.indexCode ++
          be4 h.placed⟩ s s) ∧
    (p = .console →
      Answered (.counters p item [1]) p ⟨.accept, 0x60,
        be4 s.counters.grantsIssued ++ be4 s.counters.expiries ++ be4 s.counters.lateReports ++
        be4 s.counters.ungrantedMoves ++ be4 s.counters.slips ++ be4 s.counters.layersPlaced ++
        be4 s.counters.layersRetired ++ be4 s.counters.layersWithdrawn⟩ s s ∧
      let bytes := fun c : PortCounters =>
        be2 c.good ++ be2 c.check ++ be2 c.gap ++ be2 c.length ++ be2 c.overrun ++ be2 c.refused
      let own := (s.port .console).counters
      Answered (.counters p item [2]) p ⟨.accept, 0x60,
        [Port.stationA, .stationB, .feed].flatMap (fun q => bytes (s.port q).counters) ++
        bytes { own with good := sat16 (own.good + 1) }⟩ s s)

/-- R105: STATION VIEW answers the station's view with a page of its live grants; its own frame has made the port alive,
so the PERMIT field is the contact as the frame leaves it. It changes nothing, and a page above 9 is refused RANGE. -/
def Obligations.StationViewAnswers : Prop :=
  (∀ (p : Port) (st : Station) (item : Item) (page : Byte) (s : State),
    p.station? = some st → s.Hears p → 9 < page.toNat → Refused (.stationView p item [page]) p 0x23 0x05 1 s) ∧
  ∀ (p : Port) (st : Station) (item : Item) (page : Byte) (s : State),
    p.station? = some st → s.Hears p → page.toNat ≤ 9 →
    let mine := (List.finRange 96).filterMap fun j =>
      (s.grant? j).bind fun g => if g.station = st then some (j, g) else none
    let shown := (mine.drop (5 * page.toNat)).take 5
    let count := fun x => (s.jacks.toList.filter fun j => j.station == st && j.live.state == x).length
    Answered (.stationView p item [page]) p ⟨.accept, 0x23,
      be1 s.mode.code ++ be1 s.holds.length ++
      be1 (if (s.mode = .rise ∨ s.mode = .crawl) ∧ s.holds = [] then 1 else 0) ++
      be1 (s.active.budget st) ++ be1 (s.liveGrants st) ++ be4? s.hMin ++
      be1 (count .unsurveyed) ++ be1 (count .ready) ++ be1 (count .granted) ++ be1 (count .stalled) ++
      be1 (count .slip) ++ be1 (count .rodEnd) ++ be1 (count .excluded) ++ be1 page.toNat ++ be1 shown.length ++
      shown.flatMap fun g =>
        be1 g.1.val ++ be2 (g.2.length + (if g.2.mode = .crawl then 32768 else 0)) ++ be4 g.2.expires⟩ s s

/-- R41: FEED ADVICE names the fill-starved candidate, if there is one, else the candidate, with the largest room, the
lowest index among equals; with no candidate it answers NONE and why. It changes nothing. The room of a considered sector
is (D_low − FREEBOARD) − F, signed; a sector is considered while it is defined, based and has a level-bearing jack. -/
def Obligations.FeedAdviceNamesTheBestSector : Prop :=
  (∀ (s : State) (k : SectorIx),
    (s.considered k = true ↔
      (s.sector k).defined = true ∧ (s.sector k).live.based = true ∧ ∃ d, s.dLow k = some d) ∧
    ∀ d, s.dLow k = some d → s.feedRoom k = (d : Int) - s.active.freeboard - (s.sector k).fill) ∧
  ∀ (item : Item) (s : State), s.Hears .feed →
    let candidate := fun k =>
      !s.freeList.isEmpty && s.considered k && decide (200 ≤ s.feedRoom k) &&
        decide ((s.sector k).live.chain.length < 16)
    let all := (List.finRange 24).filter candidate
    let left := if all.any s.fillStarved then all.filter s.fillStarved else all
    let counts := be1 s.starvedCount ++ be1 all.length ++ be2 s.freeList.length
    (all = [] →
      Answered (.feedAdvice .feed item []) .feed ⟨.accept, 0x31,
        be1 0xFF ++ be2 0 ++ counts ++ be1 (if s.freeList = [] then 1 else 2)⟩ s s) ∧
    ∀ w ∈ left, (∀ k ∈ left, s.feedRoom k < s.feedRoom w ∨ s.feedRoom k = s.feedRoom w ∧ w ≤ k) →
      Answered (.feedAdvice .feed item []) .feed ⟨.accept, 0x31,
        be1 w.val ++ be2 (min (s.feedRoom w) 4000).toNat ++ counts ++ be1 0⟩ s s

/-! ### The Jack Table (chapter 1) -/

/-- R3 and the ranking of R86: the spread rank is the 7-bit bit-reversal of the index, whatever the state, and distinct
for distinct jacks; a demand's candidates are the defined jacks of its station and scope, by height and then spread rank
ascending. -/
def Obligations.SpreadRankOrdersCandidates : Prop :=
  (∀ j : JackIx, spreadRank j < 128 ∧ ∀ i : Nat, i < 7 → (spreadRank j).testBit i = j.val.testBit (6 - i)) ∧
  (∀ j k : JackIx, spreadRank j = spreadRank k → j = k) ∧
  ∀ (s : State) (st : Station) (scope : Option (Fin 8)),
    (s.candidates st scope).Pairwise (fun a b =>
      (s.jack a).live.height < (s.jack b).live.height ∨
      (s.jack a).live.height = (s.jack b).live.height ∧ spreadRank a < spreadRank b) ∧
    ∀ j : JackIx, j ∈ s.candidates st scope ↔
      (s.jack j).live.state ≠ .undefined ∧ (s.jack j).station = st ∧ ∀ g ∈ scope, (s.jack j).group = g

/-- Section 1.4 (R5, R6, R9): JACK DEFINE writes the identity fields, gives a new jack its defaults and keeps the live
fields of a defined one; UNDEFINE returns the record to its defaults. Retirement runs in the sectors whose level-bearing
jacks changed (counted after an UNDEFINE too, by the model's choice, log entry 28), an exposing DEFINE places the EXPOSED
hold, and the mode follows. Nothing else changes. The tests of the section's table refuse, in their order, a bad item, the
first bad field, a moving deck and an undefined sector; a GRANTED jack is in GrantedJacksAreBusy. What a placement does: ReportEntryOutcomes. -/
def Obligations.JackDefineWritesTheRecord : Prop :=
  (∀ (s : State) (item : Item) (a b c : Byte), s.Hears .console →
    let define := fun code detail => Refused (.jackDefine .console item [a, b, c]) .console 0x54 code detail s
    let undefine := fun code detail => Refused (.jackUndefine .console item [a, b, c]) .console 0x54 code detail s
    (96 ≤ item.toNat → define 0x04 item.toNat ∧ undefine 0x04 item.toNat) ∧
    ∀ j : JackIx, item.toNat = j.val →
      (2 ≤ a.toNat → define 0x05 2) ∧
      (a.toNat < 2 → 8 ≤ b.toNat → define 0x05 3) ∧
      (a.toNat < 2 → b.toNat < 8 → 24 ≤ c.toNat → define 0x05 4) ∧
      (s.mode = .rise ∨ s.mode = .crawl →
        undefine 0x06 0 ∧ (a.toNat < 2 → b.toNat < 8 → c.toNat < 24 → define 0x06 0)) ∧
      (s.mode = .survey ∨ s.mode = .ready → (s.jack j).live.state ≠ .granted →
        ∀ k : SectorIx, a.toNat < 2 → b.toNat < 8 → c.toNat = k.val → (s.sector k).defined = false →
          define 0x04 (256 + k.val))) ∧
  ∀ (s : State) (item : Item) (j : JackIx),
    s.Hears .console → item.toNat = j.val → (s.mode = .survey ∨ s.mode = .ready) → (s.jack j).live.state ≠ .granted →
    let old := s.jack j
    (∀ (station group sector : Byte) (a : Station) (b : Fin 8) (c : SectorIx),
      station.toNat = (match a with | .A => 0 | .B => 1) → group.toNat = b.val → sector.toNat = c.val →
      (s.sector c).defined = true →
      let live := if old.live.state = .undefined then { JackLive.default with state := .unsurveyed } else old.live
      let moved := if old.levelBearing ∧ old.sector ≠ c then sectorPair old.sector c else []
      Answered (.jackDefine .console item [station, group, sector]) .console ⟨.accept, 0x54, be1 live.state.code⟩ s
        ((((s.setJack j ⟨a, b, c, live⟩).retireSectors moved).placeExposed.passMode).commit)) ∧
    ∀ tail : List Byte, tail.length = 3 →
      Answered (.jackUndefine .console item tail) .console ⟨.accept, 0x54, be1 0⟩ s
        ((((s.setJack j ⟨.A, 0, 0, JackLive.default⟩).retireSectors
          (if old.levelBearing then [old.sector] else [])).passMode).commit)

/-- Section 1.5 (R7, R8, R9): SURVEY sets the height, a first survey without limit and taking the jack to READY, or
ROD_END with a short rod, a later one within SURVLIM or with FORCE and keeping the state; every other field of the jack
is kept. Setting a surveyed jack's own height has no effect. The tests of the section's table refuse, in their order, an
item that names no defined jack, a bad height or qualifier, and a jump above SURVLIM without FORCE. What a placement does: ReportEntryOutcomes. -/
def Obligations.SurveySetsTheHeight : Prop :=
  (∀ (s : State) (item : Item) (payload : List Byte), s.Hears .console → payload.length = 5 →
    let height := u32At payload 0
    let refused := fun code detail => Refused (.survey .console item payload) .console 0x51 code detail s
    ((∀ j : JackIx, item.toNat = j.val → (s.jack j).live.state = .undefined) → refused 0x04 item.toNat) ∧
    ∀ j : JackIx, item.toNat = j.val → (s.jack j).live.state ≠ .undefined →
      (2000000 < height → refused 0x05 1) ∧
      (height ≤ 2000000 → 1 < u8At payload 4 → refused 0x05 2) ∧
      let jump := ((height : Int) - (s.jack j).live.height).natAbs
      (height ≤ 2000000 → u8At payload 4 = 0 → (s.jack j).live.state ≠ .granted →
        (s.jack j).live.state ≠ .unsurveyed → s.active.survlim < jump → refused 0x05 (min jump 65535))) ∧
  ∀ (s : State) (item : Item) (j : JackIx) (payload : List Byte),
    s.Hears .console → item.toNat = j.val → payload.length = 5 →
    (s.jack j).live.state ≠ .undefined → (s.jack j).live.state ≠ .granted →
    let v := (s.jack j).live
    let height := u32At payload 0
    height ≤ 2000000 → u8At payload 4 ≤ 1 →
    (v.state = .unsurveyed ∨ ((height : Int) - v.height).natAbs ≤ s.active.survlim ∨ u8At payload 4 = 1) →
    let state := if v.state = .unsurveyed then if v.rod < s.active.lnom + 500 then .rodEnd else .ready else v.state
    let moved := if state ≠ .excluded then [(s.jack j).sector] else []
    Answered (.survey .console item payload) .console
      ⟨.accept, 0x51, be4 v.height ++ be4 height ++ be1 state.code⟩ s
      (if v.state ≠ .unsurveyed ∧ height = v.height then s
      else
        ((((s.setLive j { v with height := height, state := state }).retireSectors moved).placeExposed.crawlAfter
          s.hMin).passMode).commit)

/-- R10: ROD EXTEND adds the length, saturating at 120,000; a ROD_END jack with at least LNOM + 500 goes to READY, and a
jack in any other state keeps it, a GRANTED one with its grant. An item that names no defined jack is refused ITEM and a
length outside 1..60,000 RANGE. Nothing else changes. -/
def Obligations.RodExtendAddsRod : Prop :=
  ∀ (s : State) (item : Item) (payload : List Byte), s.Hears .console → payload.length = 2 →
    let length := u16At payload 0
    ((∀ j : JackIx, item.toNat = j.val → (s.jack j).live.state = .undefined) →
      Answered (.rodExtend .console item payload) .console ⟨.refuse, 0x52, be1 0x04 ++ be2 item.toNat⟩ s s) ∧
    ∀ j : JackIx, item.toNat = j.val → (s.jack j).live.state ≠ .undefined →
      let v := (s.jack j).live
      let rod := min (v.rod + length) 120000
      let state := if v.state = .rodEnd ∧ s.active.lnom + 500 ≤ rod then .ready else v.state
      (length < 1 ∨ 60000 < length →
        Answered (.rodExtend .console item payload) .console ⟨.refuse, 0x52, [0x05, 0, 1]⟩ s s) ∧
      (1 ≤ length → length ≤ 60000 →
        Answered (.rodExtend .console item payload) .console ⟨.accept, 0x52, be4 rod ++ be1 state.code⟩ s
          ((s.setLive j { v with rod := rod, state := state }).commit))

/-- R11, R12 and R13: EXCLUDE takes READY, STALLED, SLIP and ROD_END jacks to EXCLUDED, INCLUDE an EXCLUDED one to READY,
or ROD_END with a short rod, and CLEAR takes STALLED and SLIP the same way and clears the count and both flags. Every
other field of the jack is kept. An item that names no defined jack is refused ITEM, and a state that does not allow the
action STATE with its code. What a placement does: ReportEntryOutcomes. -/
def Obligations.JackSetActs : Prop :=
  (∀ (s : State) (item : Item), s.Hears .console →
    let exclude := fun code detail => Refused (.jackSetExclude .console item []) .console 0x53 code detail s
    let readmit := fun code detail => Refused (.jackSetInclude .console item []) .console 0x53 code detail s
    let clear := fun code detail => Refused (.jackSetClear .console item []) .console 0x53 code detail s
    ((∀ j : JackIx, item.toNat = j.val → (s.jack j).live.state = .undefined) →
      exclude 0x04 item.toNat ∧ readmit 0x04 item.toNat ∧ clear 0x04 item.toNat) ∧
    ∀ j : JackIx, item.toNat = j.val →
      let state := (s.jack j).live.state
      (state = .unsurveyed → exclude 0x0A 1 ∧ clear 0x0A 1 ∧ readmit 0x0A 1) ∧
      (state = .excluded → exclude 0x0A 7 ∧ clear 0x0A 7) ∧
      (state = .ready ∨ state = .stalled ∨ state = .slip ∨ state = .rodEnd → readmit 0x0A state.code)) ∧
  ∀ (s : State) (item : Item) (j : JackIx), s.Hears .console → item.toNat = j.val →
    let v := (s.jack j).live
    let back := if v.rod < s.active.lnom + 500 then JackState.rodEnd else .ready
    let inService := v.state = .ready ∨ v.state = .stalled ∨ v.state = .slip ∨ v.state = .rodEnd
    (inService →
      Answered (.jackSetExclude .console item []) .console ⟨.accept, 0x53, be1 7⟩ s
        ((((s.setLive j { v with state := .excluded }).retireSectors [(s.jack j).sector]).crawlAfter s.hMin).commit)) ∧
    (v.state = .excluded →
      Answered (.jackSetInclude .console item []) .console ⟨.accept, 0x53, be1 back.code⟩ s
        (((s.setLive j { v with state := back }).retireSectors [(s.jack j).sector]).placeExposed.commit)) ∧
    (inService →
      let state := if v.state = .stalled ∨ v.state = .slip then back else v.state
      Answered (.jackSetClear .console item []) .console ⟨.accept, 0x53, be1 state.code⟩ s
        ((s.setLive j { v with state := state, shortCount := 0, overrun := false, ungranted := false }).commit))

/-- R83, sections 1.4 to 1.7: SURVEY, JACK SET and JACK DEFINE of a GRANTED jack are refused BUSY and change nothing. -/
def Obligations.GrantedJacksAreBusy : Prop :=
  ∀ (s : State) (item : Item) (j : JackIx),
    s.Hears .console → item.toNat = j.val → (s.jack j).live.state = .granted →
    (∀ payload : List Byte, payload.length = 5 → u32At payload 0 ≤ 2000000 → u8At payload 4 ≤ 1 →
      Answered (.survey .console item payload) .console ⟨.refuse, 0x51, [0x07, 0, 0]⟩ s s) ∧
    Answered (.jackSetExclude .console item []) .console ⟨.refuse, 0x53, [0x07, 0, 0]⟩ s s ∧
    Answered (.jackSetInclude .console item []) .console ⟨.refuse, 0x53, [0x07, 0, 0]⟩ s s ∧
    Answered (.jackSetClear .console item []) .console ⟨.refuse, 0x53, [0x07, 0, 0]⟩ s s ∧
    ((s.mode = .survey ∨ s.mode = .ready) →
      (∀ station group sector : Byte, station.toNat < 2 → group.toNat < 8 → sector.toNat < 24 →
        Answered (.jackDefine .console item [station, group, sector]) .console ⟨.refuse, 0x54, [0x07, 0, 0]⟩ s s) ∧
      ∀ tail : List Byte, tail.length = 3 →
        Answered (.jackUndefine .console item tail) .console ⟨.refuse, 0x54, [0x07, 0, 0]⟩ s s)

/-- R16, R17 and R18: SECTOR DEFINE writes the probe and keeps the live fields of a defined sector, UNDEFINE returns the
record to its defaults, and SECTOR BASE sets the hardened top under an empty chain; the mode follows. Nothing else
changes. The tests of section 1.10 refuse, in their order, a bad item, a bad probe or elevation, a moving deck, a sector
that a jack names, and a chain with layers. -/
def Obligations.SectorRequestsWriteTheRecord : Prop :=
  (∀ (s : State) (item : Item) (b : Byte) (payload : List Byte), s.Hears .console → payload.length = 4 →
    let define := fun code detail => Refused (.sectorDefine .console item [b]) .console 0x55 code detail s
    let undefine := fun code detail => Refused (.sectorUndefine .console item [b]) .console 0x55 code detail s
    let base := fun code detail => Refused (.sectorBase .console item payload) .console 0x56 code detail s
    let moving := s.mode = .rise ∨ s.mode = .crawl
    (24 ≤ item.toNat → define 0x04 item.toNat ∧ undefine 0x04 item.toNat ∧ base 0x04 item.toNat) ∧
    ∀ k : SectorIx, item.toNat = k.val →
      let chain := (s.sector k).live.chain
      let named := ∃ j : JackIx, (s.jack j).live.state ≠ .undefined ∧ (s.jack j).sector = k
      (12 ≤ b.toNat → b ≠ 0xFF → define 0x05 2) ∧
      (moving → undefine 0x06 0 ∧ (b.toNat < 12 ∨ b = 0xFF → define 0x06 0)) ∧
      (¬ moving → named → undefine 0x0A 1) ∧
      (¬ moving → ¬ named → chain ≠ [] → undefine 0x0A 2) ∧
      ((s.sector k).defined = false → base 0x04 item.toNat) ∧
      ((s.sector k).defined = true →
        (2000000 < u32At payload 0 → base 0x05 1) ∧
        (u32At payload 0 ≤ 2000000 → moving → base 0x06 0) ∧
        (u32At payload 0 ≤ 2000000 → ¬ moving → chain ≠ [] → base 0x0A chain.length))) ∧
  ∀ (s : State) (item : Item) (k : SectorIx),
    s.Hears .console → item.toNat = k.val → (s.mode = .survey ∨ s.mode = .ready) →
    let r := s.sector k
    (∀ (b : Byte) (probe : Option ProbeIx),
      (b = 0xFF ∧ probe = none ∨ ∃ n : ProbeIx, b.toNat = n.val ∧ probe = some n) →
      let live := if r.defined then r.live else SectorLive.default
      Answered (.sectorDefine .console item [b]) .console ⟨.accept, 0x55, be1 (if live.based then 1 else 0)⟩ s
        ((s.setSector k ⟨true, probe, live⟩).passMode.commit)) ∧
    (∀ b : Byte, (∀ j : JackIx, (s.jack j).live.state ≠ .undefined → (s.jack j).sector ≠ k) → r.live.chain = [] →
      Answered (.sectorUndefine .console item [b]) .console ⟨.accept, 0x55, be1 0⟩ s
        ((s.setSector k ⟨false, none, SectorLive.default⟩).passMode.commit)) ∧
    ∀ payload : List Byte, payload.length = 4 → u32At payload 0 ≤ 2000000 → r.defined = true → r.live.chain = [] →
      Answered (.sectorBase .console item payload) .console ⟨.accept, 0x56, be4 (u32At payload 0)⟩ s
        ((s.setSectorLive k { r.live with based := true, hHard := u32At payload 0 }).passMode.commit)

/-! ### Concrete layers (chapter 2) -/

/-- R29: an accepted LAYER PLACED takes the slot on top of the free list, appends a fresh layer on the fill elevation and
counts it; an exposing placement places the EXPOSED hold. Nothing else changes. R28: the tests refuse, in their order, an
item that names no defined sector, an UNBASED one, a bad thickness, class or top, a full chain, and an empty pool. What a placement does: ReportEntryOutcomes. -/
def Obligations.LayerPlacedAppendsALayer : Prop :=
  (∀ (s : State) (item : Item) (hi lo mix : Byte), s.Hears .feed →
    let refused := fun code detail => Refused (.layerPlaced .feed item [hi, lo, mix]) .feed 0x30 code detail s
    let thickness := hi.toNat * 256 + lo.toNat
    ((∀ k : SectorIx, item.toNat = k.val → (s.sector k).defined = false) → refused 0x04 item.toNat) ∧
    ∀ k : SectorIx, item.toNat = k.val → (s.sector k).defined = true →
      let v := (s.sector k).live
      (v.based = false → refused 0x06 0) ∧
      (v.based = true →
        (thickness < 200 ∨ 4000 < thickness → refused 0x05 1) ∧
        (200 ≤ thickness → thickness ≤ 4000 →
          (3 < mix.toNat → refused 0x05 2) ∧
          (mix.toNat ≤ 3 →
            (2000000 < (s.sector k).fill + thickness → refused 0x05 3) ∧
            ((s.sector k).fill + thickness ≤ 2000000 →
              (16 ≤ v.chain.length → refused 0x08 1) ∧
              (v.chain.length < 16 → s.freeList = [] → refused 0x08 2)))))) ∧
  ∀ (s : State) (item : Item) (k : SectorIx) (hi lo mix : Byte) (c : Fin 4) (slot : Slot) (free : List Slot),
    s.Hears .feed → item.toNat = k.val → (s.sector k).defined = true → (s.sector k).live.based = true →
    let v := (s.sector k).live
    let fill := (s.sector k).fill
    let thickness := hi.toNat * 256 + lo.toNat
    200 ≤ thickness → thickness ≤ 4000 → mix.toNat = c.val → fill + thickness ≤ 2000000 → v.chain.length < 16 →
    s.freeList = slot :: free →
    let layer : Layer :=
      { slot := slot, sector := k, base := fill, top := fill + thickness, mixClass := c, maturity := 0, age := 0
        released := false, stuck := false }
    let u := (({ s with
      freeList := free
      counters := { s.counters with layersPlaced := sat32 (s.counters.layersPlaced + 1) } }.setSectorLive k
        { v with chain := v.chain ++ [layer], placed := sat16 (v.placed + 1) }).placeExposed).commit
    Answered (.layerPlaced .feed item [hi, lo, mix]) .feed ⟨.accept, 0x30,
      be1 slot.val ++ be4 fill ++ be4 (fill + thickness) ++ be1 (v.chain.length + 1) ++ be1 free.length ++
      be1 ((if u.overfill k then 1 else 0) + (if u.lag k then 2 else 0) + (if u.exposed k then 4 else 0) +
        (if u.fillStarved k then 8 else 0))⟩ s u

/-- R33: an accepted LAYER WITHDRAW removes the top layer, returns its slot to the top of the free list and counts it; no
hold, flag or other count changes. R32: the tests refuse, in their order, an item that names no defined sector, an empty
chain, a released top layer, and one of age 10 or more. -/
def Obligations.LayerWithdrawRemovesTheTop : Prop :=
  (∀ (s : State) (item : Item), s.Hears .feed →
    let refused := fun code detail => Refused (.layerWithdraw .feed item []) .feed 0x32 code detail s
    ((∀ k : SectorIx, item.toNat = k.val → (s.sector k).defined = false) → refused 0x04 item.toNat) ∧
    ∀ k : SectorIx, item.toNat = k.val → (s.sector k).defined = true →
      ((s.sector k).live.chain = [] → refused 0x0A 1) ∧
      ∀ (below : List Layer) (l : Layer), (s.sector k).live.chain = below ++ [l] →
        (l.released = true → refused 0x0A 2) ∧ (l.released = false → 10 ≤ l.age → refused 0x0A 3)) ∧
  ∀ (s : State) (item : Item) (k : SectorIx) (below : List Layer) (l : Layer),
    s.Hears .feed → item.toNat = k.val → (s.sector k).defined = true → (s.sector k).live.chain = below ++ [l] →
    l.released = false → l.age < 10 →
    Answered (.layerWithdraw .feed item []) .feed ⟨.accept, 0x32,
      be1 l.slot.val ++ be4 l.base ++ be4 l.top ++ be1 below.length ++ be2 (s.freeList.length + 1)⟩ s
      (({ s with
        freeList := l.slot :: s.freeList
        counters := { s.counters with layersWithdrawn := sat32 (s.counters.layersWithdrawn + 1) } }.setSectorLive k
          { (s.sector k).live with chain := below }).commit)

/-- R36: a run of retirement removes from the bottom of a chain the layers that are released and lie at or below
D_low − HF, up to the first that is not; H_hard takes the last one's top, the slots go onto the free list bottom layer
first, and both counts rise. A sector that is not eligible is left alone. -/
def Obligations.RetirementRunsFromTheBottom : Prop :=
  ∀ (s : State) (k : SectorIx),
    ((s.sector k).defined = false ∨ (s.sector k).live.based = false ∨ s.dLow k = none → s.retireSector k = s) ∧
    ∀ d, (s.sector k).defined = true → (s.sector k).live.based = true → s.dLow k = some d →
      let v := (s.sector k).live
      let goes := fun l : Layer => l.released = true ∧ (l.top : Int) ≤ (d : Int) - s.active.hf
      ∃ gone kept, v.chain = gone ++ kept ∧ (∀ l ∈ gone, goes l) ∧ (∀ l ∈ kept.head?, ¬ goes l) ∧
        s.retireSector k =
          { s with
            freeList := (gone.map Layer.slot).reverse ++ s.freeList
            counters := { s.counters with layersRetired := sat32 (s.counters.layersRetired + gone.length) }
          }.setSectorLive k
            { v with
              hHard := (gone.getLast?.map Layer.top).getD v.hHard
              chain := kept
              retired := sat16 (v.retired + gone.length) }

/-- R39: retirement leaves the fill elevation, the release elevation, the ceiling and the flags of every sector as they
were, and places no hold. R27, R68 to R70 and R74 to R76 say what those values are: D_low and D_high are the lowest and
highest heights of the sector's level-bearing jacks, F the top of the chain, E_rel the top of its released bottom part,
D_max the lesser of the two terms, and each flag what its rule says; EXPOSED is D_high above E_rel + HF with an unreleased
layer in the chain. Retirement in several sectors is a run in each, one after another; a change of one jack runs it in one
or two sectors in ascending index (R38), and of the jack states five are level-bearing (R65). -/
def Obligations.RetirementKeepsDerivedValues : Prop :=
  (∀ (s : State) (k i : SectorIx),
    let t := s.retireSector k
    (t.sector i).fill = (s.sector i).fill ∧ (t.sector i).eRel = (s.sector i).eRel ∧ t.dMax i = s.dMax i ∧
    t.overfill i = s.overfill i ∧ t.lag i = s.lag i ∧ t.exposed i = s.exposed i ∧
    t.fillStarved i = s.fillStarved i ∧ t.holds = s.holds) ∧
  (∀ (s : State) (k : SectorIx) (ks : List SectorIx),
    s.retireSectors [] = s ∧ s.retireSectors (k :: ks) = (s.retireSector k).retireSectors ks) ∧
  (∀ a b : SectorIx, sectorPair a b = if a = b then [a] else [min a b, max a b]) ∧
  (∀ j : Jack, j.levelBearing = true ↔ j.live.state ∈ [JackState.ready, .granted, .stalled, .slip, .rodEnd]) ∧
  ∀ (s : State) (k : SectorIx),
    let r := s.sector k
    let v := r.live
    let member := fun j : JackIx =>
      (s.jack j).live.state ∈ [JackState.ready, .granted, .stalled, .slip, .rodEnd] ∧ (s.jack j).sector = k
    let height := fun j : JackIx => (s.jack j).live.height
    let inSlip := r.defined = true ∧ v.based = true
    let concrete : Int := (r.eRel : Int) + s.active.hf
    let filled : Int := (r.fill : Int) + s.active.hf - s.active.emb
    (∀ d, s.dLow k = some d ↔
      r.defined = true ∧ (∃ j, member j ∧ height j = d) ∧ ∀ j, member j → d ≤ height j) ∧
    (∀ d, s.dHigh k = some d ↔
      r.defined = true ∧ (∃ j, member j ∧ height j = d) ∧ ∀ j, member j → height j ≤ d) ∧
    r.fill = (v.chain.getLast?.map Layer.top).getD v.hHard ∧
    (∃ below above, v.chain = below ++ above ∧ (∀ l ∈ below, l.released = true) ∧
      (∀ l ∈ above.head?, l.released = false) ∧ r.eRel = (below.getLast?.map Layer.top).getD v.hHard) ∧
    (inSlip → s.dMax k = some (min concrete filled) ∧ (s.fillStarved k = true ↔ filled < concrete)) ∧
    (¬ inSlip → s.dMax k = none ∧ s.fillStarved k = false) ∧
    (s.overfill k = true ↔
      inSlip ∧ ∃ d, s.dLow k = some d ∧ (d : Int) - s.active.freeboard < (r.fill : Int)) ∧
    (s.lag k = true ↔
      inSlip ∧ ∃ d, s.dLow k = some d ∧ ∃ l ∈ v.chain, l.stuck = true ∧ (d : Int) - s.active.hf < (l.top : Int)) ∧
    (s.exposed k = true ↔
      inSlip ∧ ∃ d, s.dHigh k = some d ∧ ∃ l ∈ v.chain, l.released = false ∧ (l.base : Int) < (d : Int) - s.active.hf) ∧
    (v.Stands → (s.exposed k = true ↔
      inSlip ∧ ∃ d, s.dHigh k = some d ∧ (∃ l ∈ v.chain, l.released = false) ∧ concrete < (d : Int)))

/-! ### Probes and maturity (chapter 3) -/

/-- R47 to R51 with R174: at a sample expiry every probe takes its own sample by the row of section 3.2 that its state,
its runs and the sample's validity give, and the battery state moves with hysteresis. Nothing else changes but what the
PROBE condition sounds. -/
def Obligations.SamplesActOnTheirProbes : Prop :=
  ∀ (s : State) (samples : Vector Int 12) (battery : Nat), s.phase = .running → s.sampleTimer = true →
    ∃ probes : Vector Probe 12,
      Leaves (.probeSampleExpiry samples battery) s
        { s with
          probes := probes
          batteryLow := if battery < 2700 then true else if battery < 2900 then s.batteryLow else false } ∧
      ∀ n : ProbeIx,
        let p := s.probe n
        let x := samples[n]
        let valid := -300 ≤ x ∧ x ≤ 800
        let seen := { p with lastSample := some x, lastValid := decide valid }
        let filled := { seen with window := #v[x, x, x, x], writeIndex := 0, invalidRun := 0 }
        let entered := { seen with
          window := p.window.set p.writeIndex.val x p.writeIndex.isLt, writeIndex := p.writeIndex + 1, invalidRun := 0 }
        (p.state = .new → valid → probes[n] = { filled with state := .good }) ∧
        (p.state ≠ .fault → ¬ valid → p.invalidRun ≤ 1 → probes[n] = { seen with invalidRun := p.invalidRun + 1 }) ∧
        (p.state ≠ .fault → ¬ valid → p.invalidRun = 2 →
          probes[n] = { seen with
            invalidRun := 3, state := .fault, recoveryRun := 0, faultCount := sat16 (p.faultCount + 1) }) ∧
        (p.state = .good → valid → probes[n] = entered) ∧
        (p.state = .fault → valid → p.recoveryRun = 0 → probes[n] = { filled with recoveryRun := 1 }) ∧
        (p.state = .fault → valid → p.recoveryRun = 1 ∨ p.recoveryRun = 2 →
          probes[n] = { entered with recoveryRun := p.recoveryRun + 1 }) ∧
        (p.state = .fault → valid → p.recoveryRun = 3 →
          probes[n] = { entered with recoveryRun := 0, state := .good }) ∧
        (p.state = .fault → ¬ valid → probes[n] = { seen with recoveryRun := 0, invalidRun := 3 })

/-- R52: the reported average is the sum of the window over 4, rounded toward minus infinity, within −30.0 to +80.0 °C, for
a GOOD probe, and the fault code for a NEW or FAULT one. -/
def Obligations.AverageRoundsDown : Prop :=
  ∀ p : Probe,
    (p.state = .good →
      4 * p.average ≤ p.window[0] + p.window[1] + p.window[2] + p.window[3] ∧
      p.window[0] + p.window[1] + p.window[2] + p.window[3] < 4 * p.average + 4 ∧
      ((∀ i : Fin 4, -300 ≤ p.window[i] ∧ p.window[i] ≤ 800) → -300 ≤ p.average ∧ p.average ≤ 800)) ∧
    (p.state = .new ∨ p.state = .fault → p.average = -32768)

/-- R56 to R59, R36 and R38: an interval expiry gives every layer of every defined sector with layers the increment of the
sector's temperature, one step of age and fresh flags; a sector in which a layer became released runs retirement; the
slots reach the free list in ascending sector index; the stamp takes the deck second, and retained memory is written with
a matching check. Every other sector, record and hold is left alone. An interval of the outage credit acts alike with its
own increments, but for the stamp and retained memory (R62). -/
def Obligations.IntervalMaturesEveryChain : Prop :=
  ∀ s : State,
    let served := fun k : SectorIx => (s.sector k).defined && !(s.sector k).live.chain.isEmpty
    let matured := fun (step : SectorIx → Nat) (u : State) =>
      let aged := fun k : SectorIx => (s.sector k).live.chain.map fun l : Layer =>
        let m := min (l.maturity + step k) 4000000
        { l with
          maturity := m
          age := min (l.age + 1) 65535
          released := decide (s.active.rel l.mixClass ≤ m)
          stuck := decide (s.active.stk l.mixClass ≤ m) }
      let triggered := fun k : SectorIx =>
        (s.sector k).live.chain.any fun l : Layer =>
          !l.released && decide (s.active.rel l.mixClass ≤ min (l.maturity + step k) 4000000)
      let gone := fun k : SectorIx =>
        match s.dLow k with
        | some d =>
          if served k = true ∧ triggered k = true ∧ (s.sector k).live.based = true then
            (aged k).takeWhile fun l : Layer => l.released && decide ((l.top : Int) ≤ (d : Int) - s.active.hf)
          else []
        | none => []
      let runs := fun k : SectorIx =>
        served k = true ∧ triggered k = true ∧ (s.sector k).live.based = true ∧ (s.dLow k).isSome = true
      u.freeList = ((List.finRange 24).flatMap fun k => (gone k).map Layer.slot).reverse ++ s.freeList ∧
      u.counters = { s.counters with layersRetired := u.counters.layersRetired } ∧
      (s.counters.layersRetired ≤ 4294967295 →
        u.counters.layersRetired =
          sat32 (s.counters.layersRetired + ((List.finRange 24).map fun k => (gone k).length).sum)) ∧
      ∀ k : SectorIx,
        u.sector k =
          if served k = true then
            { s.sector k with live :=
              { (s.sector k).live with
                chain := (aged k).drop (gone k).length
                hHard := ((gone k).getLast?.map Layer.top).getD (s.sector k).live.hHard
                retired := if runs k then sat16 ((s.sector k).live.retired + (gone k).length)
                  else (s.sector k).live.retired } }
          else s.sector k
    (∀ step : SectorIx → Nat,
      let u := s.interval fun _ k => step k
      matured step u ∧ u = { s with sectors := u.sectors, freeList := u.freeList, counters := u.counters }) ∧
    (s.phase = .running → s.intervalTimer = true →
      let temperature := fun k : SectorIx =>
        match (s.sector k).probe with
        | some n => if (s.probe n).state = .good then (s.probe n).average else s.active.fallback
        | none => s.active.fallback
      let step := fun k : SectorIx => (min (max (temperature k - s.active.datum) 0) 900).toNat
      ∃ u : State,
        Leaves .maturityIntervalExpiry s u ∧ u.RetainedMirrors ∧ u.retained.stamp = s.retained.counter ∧
        u.retained.checkGood = true ∧
        u = { s with sectors := u.sectors, freeList := u.freeList, counters := u.counters, retained := u.retained } ∧
        u.retained.counter = s.retained.counter ∧ u.retained.runMark = s.retained.runMark ∧ matured step u)

/-! ### Rooms and grants (chapters 4 and 5) -/

/-- R72, R73 and R89: the room of a jack is the least of its ceiling, level and, in CRAWL, crawl terms. In RISE a grant
is min(LNOM, room) when that is at least 50, in CRAWL it is CRAWLSTROKE when the room holds it; otherwise the jack is
withheld for the least term, the first of CEILING, LEVEL and CRAWL among equals. -/
def Obligations.GrantLengthFollowsRoom : Prop :=
  ∀ (s : State) (j : Jack) (ceiling : Int) (hMin : Nat),
    j.live.state = .ready → s.dMax j.sector = some ceiling → s.hMin = some hMin →
    let h : Int := j.live.height
    let c := ceiling - h
    let l := (hMin : Int) + s.active.tol - h
    (s.mode = .rise →
      let length := min (s.active.lnom : Int) (min c l)
      (50 ≤ length → s.grantLength s.hMin j = .inr length.toNat) ∧
      (length < 50 → s.grantLength s.hMin j = .inl (if c ≤ l then .ceiling else .level))) ∧
    ∀ entry : Nat, s.mode = .crawl → s.crawlEntry = some entry →
      let w := (entry : Int) + s.active.crawlLim - h
      ((s.active.crawlStroke : Int) ≤ min c (min l w) → s.grantLength s.hMin j = .inr s.active.crawlStroke) ∧
      (min c (min l w) < (s.active.crawlStroke : Int) →
        s.grantLength s.hMin j =
          .inl (if c ≤ l ∧ c ≤ w then .ceiling else if l ≤ w then .level else .crawl))

/-- R84 and R85: a demand outside RISE and CRAWL answers no grant with reason MODE, and one with holds present, no grant
with reason HELD, the mode tested first; neither changes anything. A demand whose deck passes both tests is taken with
the station's contact closed behind it. A scope outside 0..7 and 0xFF is refused RANGE with detail 1, and then a maximum
count above 16 with detail 2. -/
def Obligations.DemandTestsTheDeckFirst : Prop :=
  (∀ (p : Port) (st : Station) (item : Item) (scope count : Byte) (s : State),
    p.station? = some st → s.Hears p →
    (8 ≤ scope.toNat → scope ≠ 0xFF → Refused (.strokeDemand p item [scope, count]) p 0x20 0x05 1 s) ∧
    (scope.toNat < 8 ∨ scope = 0xFF → 16 < count.toNat →
      Refused (.strokeDemand p item [scope, count]) p 0x20 0x05 2 s)) ∧
  ∀ (p : Port) (st : Station) (item : Item) (scope count : Byte) (s : State),
    p.station? = some st → s.Hears p → (scope.toNat < 8 ∨ scope = 0xFF) → count.toNat ≤ 16 →
    (s.mode = .survey ∨ s.mode = .ready →
      Answered (.strokeDemand p item [scope, count]) p ⟨.accept, 0x20, [0, 1, 0xFF, 0xFF, 0xFF, 0xFF, 0xFF]⟩ s s) ∧
    (s.mode = .rise ∨ s.mode = .crawl → s.holds ≠ [] →
      Answered (.strokeDemand p item [scope, count]) p ⟨.accept, 0x20, [0, 2, 0xFF, 0xFF, 0xFF, 0xFF, 0xFF]⟩ s s) ∧
    (s.mode = .rise ∨ s.mode = .crawl → s.holds = [] →
      ∃ t, exec (.strokeDemand p item [scope, count]) s = .next t ∧
        (match st with
        | .A => t.permitA
        | .B => t.permitB) = true)

/-- R86 to R91: a demand that passes the deck's tests walks its candidates in rank order and judges each by the six tests
of R87 against the grants made before it. Every candidate that passes is granted: record, state, last length and second,
and the counter. The answer lists the grants in order and names the first candidate not granted. Nothing else changes. -/
def Obligations.DemandGrantsItsCandidates : Prop :=
  ∀ (p : Port) (st : Station) (item : Item) (scopeByte count : Byte) (scope : Option (Fin 8)) (s : State),
    p.station? = some st → s.Hears p →
    (scopeByte = 0xFF ∧ scope = none ∨ ∃ g : Fin 8, scopeByte.toNat = g.val ∧ scope = some g) → count.toNat ≤ 16 →
    (s.mode = .rise ∨ s.mode = .crawl) → s.holds = [] →
    (∀ j : JackIx, (s.jack j).live.state = .ready → s.grant? j = none) →
    let order := s.candidates st scope
    let most := if count.toNat = 0 then 16 else count.toNat
    let cadence := if s.mode = .crawl then s.active.crawlInt * 60 else s.active.cadence
    let expiry := min (s.retained.counter + s.active.gto) 4294967294
    ∃ (grants : List (JackIx × Nat)) (reason jack : Nat),
      let made := fun before : List JackIx => (grants.filter fun g => before.contains g.1).length
      let verdict : List JackIx → JackIx → Nat ⊕ Nat := fun before j =>
        let r := s.jack j
        if r.live.state ≠ .ready then .inl 3
        else if r.live.lastSecond.any fun t => decide ((s.retained.counter : Int) - t < cadence) then .inl 4
        else
          match s.grantLength s.hMin r with
          | .inl .ceiling => .inl 6
          | .inl .level => .inl 7
          | .inl .crawl => .inl 8
          | .inr length =>
            if r.live.rod < length + 500 then .inl 5
            else if s.active.budget st ≤ s.liveGrants st + made before then .inl 9
            else if most ≤ made before then .inl 10
            else .inr length
      Answered (.strokeDemand p item [scopeByte, count]) p ⟨.accept, 0x20,
          be1 grants.length ++ be1 reason ++ be1 jack ++ be4? (if grants = [] then none else some expiry) ++
            grants.flatMap fun g => be1 g.1.val ++ be2 g.2⟩ s
        ({ s with
          jacks := Vector.ofFn fun j : JackIx =>
            match grants.find? fun g : JackIx × Nat => g.1 == j with
            | some g => { s.jack j with live :=
                { (s.jack j).live with state := .granted, lastLength := g.2, lastSecond := some s.retained.counter } }
            | none => s.jack j
          grants := Vector.ofFn fun j : JackIx =>
            match grants.find? fun g : JackIx × Nat => g.1 == j with
            | some g => some ⟨st, g.2, s.retained.counter, expiry, s.mode⟩
            | none => s.grant? j
          counters := grants.foldl
            (fun n _ => { n with grantsIssued := sat32 (n.grantsIssued + 1) }) s.counters }.commit) ∧
      (grants.map Prod.fst).Sublist order ∧
      (∀ (before after : List JackIx) (j : JackIx), order = before ++ j :: after →
        ∀ length : Nat, (j, length) ∈ grants ↔ verdict before j = .inr length) ∧
      ((∀ j ∈ order, j ∈ grants.map Prod.fst) → reason = 0 ∧ jack = 0xFF) ∧
      ∀ (before after : List JackIx) (j : JackIx), order = before ++ j :: after →
        (∀ i ∈ before, i ∈ grants.map Prod.fst) → ∀ r : Nat, verdict before j = .inl r → reason = r ∧ jack = j.val

/-- R93: a STROKE REPORT is accepted whatever its entries say. They are handled in payload order, each on the deck the
entries before it left; the answer carries three bytes for each, and retained memory takes the whole as one update. -/
def Obligations.ReportHandlesEntriesInOrder : Prop :=
  ∀ (p : Port) (st : Station) (item : Item) (entries : List (Byte × Byte × Byte)) (s : State),
    p.station? = some st → s.Hears p → 1 ≤ entries.length → entries.length ≤ 16 →
    ∃ decks : List (State × List Byte),
      decks.length = entries.length ∧
      (∀ (i : Nat) (e : Byte × Byte × Byte), entries[i]? = some e →
        let before := if i = 0 then s else ((decks[i - 1]?).map Prod.fst).getD s
        decks[i]? = some (before.reportEntry st e.1.toNat (e.2.1.toNat * 256 + e.2.2.toNat)) ∧
          (before.reportEntry st e.1.toNat (e.2.1.toNat * 256 + e.2.2.toNat)).2.length = 3) ∧
      Answered (.strokeReport p item (entries.flatMap fun e => [e.1, e.2.1, e.2.2])) p
        ⟨.accept, 0x21, be1 entries.length ++ decks.flatMap Prod.snd⟩ s
        (((decks.getLast?.map Prod.fst).getD s).commit)

/-- R94 to R100: what one entry does, by the record it finds. A stroke of a grant (DONE) or of an expired one (LATE) is
applied, judged and followed by the jack's next state; a movement without a grant is applied unjudged, flags the jack and
places the UNGRANTED_MOVE hold; every other entry changes nothing. A moved height runs retirement and places the holds
that R100 names. The contacts, the sounder and the mute set are driven again after each entry (log entry 19), and the crawl
limit is tested where h_min has risen (log entry 12). R77, R99, R112 and R121 say what a placement is: one entry of source
PART with the deck second at the end of the set, and only while the set holds none of its reason; EXPOSED names the lowest
sector that is EXPOSED (log entry 20), CRAWL_LIMIT no part of the deck. -/
def Obligations.ReportEntryOutcomes : Prop :=
  (∀ s : State,
    let place := fun (r : HoldReason) (q : Qualifier) =>
      if ∃ h ∈ s.holds, h.reason = r then s
      else { s with holds := s.holds ++ [(⟨.part, r, q, s.retained.counter⟩ : Hold)] }
    let reached := s.mode = .crawl ∧ ∃ lowest entry : Nat, s.hMin = some lowest ∧ s.crawlEntry = some entry ∧
      (entry : Int) + s.active.crawlLim - s.active.crawlStroke < lowest
    (∀ (r : HoldReason) (q : Qualifier), s.placePart .part r q = place r q) ∧
    ((∀ k : SectorIx, s.exposed k = false) → s.placeExposed = s) ∧
    (∀ k : SectorIx, s.exposed k = true → (∀ i : SectorIx, s.exposed i = true → k ≤ i) →
      s.placeExposed = place .exposed (.sector k)) ∧
    (reached → s.placeCrawlLimit = place .crawlLimit .none) ∧ (¬ reached → s.placeCrawlLimit = s) ∧
    ∀ before : Option Nat,
      ((∃ low lowest : Nat, before = some low ∧ s.hMin = some lowest ∧ low < lowest) →
        s.crawlAfter before = s.placeCrawlLimit) ∧
      (¬ (∃ low lowest : Nat, before = some low ∧ s.hMin = some lowest ∧ low < lowest) → s.crawlAfter before = s)) ∧
  ∀ (s : State) (st : Station) (j : JackIx) (travel : Nat),
    let v := (s.jack j).live
    let own := (s.jack j).station = st
    let moved := min travel 400
    let clamped := decide (400 < travel)
    let applied : JackLive :=
      { v with
        height := min (v.height + moved) 2000000
        rod := v.rod - moved
        strokeCount := sat16 (v.strokeCount + 1)
        overrun := v.overrun || clamped }
    let judged : Nat → JackLive := fun g =>
      let short := if moved < g / 2 then min (v.shortCount + 1) 3 else 0
      { applied with
        overrun := v.overrun || clamped || decide (g + 30 < moved)
        shortCount := short
        state := if short = 3 then .slip else if v.rod - moved < s.active.lnom + 500 then .rodEnd else .ready }
    let slips : Nat → Nat := fun g => if moved < g / 2 ∧ 2 ≤ v.shortCount then 1 else 0
    let marks : Nat → Nat := fun g =>
      (if moved < g / 2 then 16 else 0) + if 400 < travel ∨ g + 30 < moved then 32 else 0
    let handOn : State → State := fun t =>
      if min (v.height + moved) 2000000 = v.height then t
      else ((if v.state = .excluded then t else t.retireSector (s.jack j).sector).placeExposed).crawlAfter s.hMin
    let entry := s.reportEntry st j.val travel
    (∀ g : Grant, own → v.state = .granted → s.grant? j = some g →
      entry =
        ((handOn (((s.setGrant j none).setLive j (judged g.length)).count fun n =>
          { n with slips := sat32 (n.slips + slips g.length) })).settle,
        be1 j.val ++ be1 (0 + marks g.length) ++ be1 (judged g.length).state.code)) ∧
    (own → v.state = .stalled →
      entry =
        ((handOn ((s.setLive j (judged v.lastLength)).count fun n =>
          { n with slips := sat32 (n.slips + slips v.lastLength), lateReports := sat32 (n.lateReports + 1) })).settle,
        be1 j.val ++ be1 (1 + marks v.lastLength) ++ be1 (judged v.lastLength).state.code)) ∧
    (own → v.state = .ready ∨ v.state = .slip ∨ v.state = .rodEnd ∨ v.state = .excluded →
      (travel = 0 → entry = (s.settle, be1 j.val ++ be1 2 ++ be1 v.state.code)) ∧
      (travel ≠ 0 →
        entry =
          ((handOn (((s.setLive j { applied with ungranted := true }).count fun n =>
            { n with ungrantedMoves := sat32 (n.ungrantedMoves + 1) }).placePart .part .ungrantedMove (.jack j))).settle,
          be1 j.val ++ be1 (2 + if 400 < travel then 32 else 0) ++ be1 v.state.code))) ∧
    (v.state = .undefined → entry = (s.settle, be1 j.val ++ be1 4 ++ be1 0)) ∧
    (¬ own → v.state ≠ .undefined → entry = (s.settle, be1 j.val ++ be1 3 ++ be1 v.state.code)) ∧
    (own → v.state = .unsurveyed → entry = (s.settle, be1 j.val ++ be1 5 ++ be1 1)) ∧
    ∀ i : Nat, 96 ≤ i → s.reportEntry st i travel = (s, be1 i ++ be1 4 ++ be1 0)

/-- R103 and R104: a cancel removes the live grants of the reporting station that it names and takes their jacks to
READY, each once, whatever else it names; a due expiry removes its grant and takes the jack to STALLED with both counts.
A grant that is not due stays. Nothing else changes. -/
def Obligations.GrantsCloseByCancelAndExpiry : Prop :=
  (∀ (p : Port) (st : Station) (item : Item) (named : List Byte) (s : State),
    p.station? = some st → s.Hears p → 1 ≤ named.length → named.length ≤ 16 →
    let held := fun b : Byte => (List.finRange 96).any fun j : JackIx =>
      j.val == b.toNat && (s.grant? j).any fun g : Grant => g.station == st
    let closed := fun j : JackIx =>
      (named.any fun b : Byte => b.toNat == j.val) && (s.grant? j).any fun g : Grant => g.station == st
    let u := ({ s with
      jacks := Vector.ofFn fun j : JackIx =>
        if closed j then { s.jack j with live := { (s.jack j).live with state := .ready } } else s.jack j
      grants := Vector.ofFn fun j : JackIx => if closed j then none else s.grant? j } : State).commit
    ∃ results : List (List Byte),
      results.length = named.length ∧
      (∀ (i : Nat) (b : Byte), named[i]? = some b →
        results[i]? = some
          (b :: be1 (if held b = true ∧ b ∉ named.take i then 0 else 1) ++
            be1 (match index? 96 b.toNat with
              | some j => (u.jack j).live.state.code
              | none => 0))) ∧
      Answered (.strokeCancel p item named) p ⟨.accept, 0x22, be1 named.length ++ results.flatten⟩ s u) ∧
  ∀ (s : State) (j : JackIx) (g : Grant), s.phase = .running → s.grant? j = some g →
    let v := (s.jack j).live
    (g.expires ≤ s.retained.counter →
      Leaves (.grantExpiry j) s
        ({ s with
          jacks := s.jacks.set j { s.jack j with live :=
            { v with state := .stalled, stallCount := sat16 (v.stallCount + 1) } }
          grants := s.grants.set j none
          counters := { s.counters with expiries := sat32 (s.counters.expiries + 1) } }.commit)) ∧
    (s.retained.counter < g.expires → Leaves (.grantExpiry j) s s)

/-! ### Modes, holds and permits (chapter 6) -/

/-- R108 and R109: MODE SET moves the deck as its table gives. RISE and STOP keep the crawl entry height and remove the
CRAWL_LIMIT entry when they leave CRAWL; CRAWL sets the entry height to h_min, but keeps it in CRAWL. RISE and CRAWL are
refused MODE in SURVEY, and an action outside 1..3 RANGE. Nothing else changes. -/
def Obligations.ModeSetMovesTheDeck : Prop :=
  (∀ (s : State) (item : Item) (action : Byte), s.Hears .console → action = 0 ∨ 3 < action.toNat →
    Refused (.modeSet .console item [action]) .console 0x50 0x05 1 s) ∧
  ∀ (s : State) (item : Item), s.Hears .console →
    let left := if s.mode = .crawl then s.holds.filter fun h : Hold => h.reason != HoldReason.crawlLimit else s.holds
    (s.mode ≠ .survey →
      Answered (.modeSet .console item [1]) .console ⟨.accept, 0x50, [2] ++ be4? s.crawlEntry ++ be1 left.length⟩ s
        ({ s with mode := .rise, holds := left }.commit)) ∧
    (∀ h : Nat, s.mode = .ready ∨ s.mode = .rise → s.hMin = some h →
      Answered (.modeSet .console item [2]) .console ⟨.accept, 0x50, [3] ++ be4 h ++ be1 s.holds.length⟩ s
        ({ s with mode := .crawl, crawlEntry := some h }.commit)) ∧
    (s.mode = .ready ∨ s.mode = .rise → s.hMin = none →
      Answered (.modeSet .console item [2]) .console ⟨.refuse, 0x50, [0x0A, 0, 1]⟩ s s) ∧
    (s.mode = .crawl →
      Answered (.modeSet .console item [2]) .console
        ⟨.accept, 0x50, [3] ++ be4? s.crawlEntry ++ be1 s.holds.length⟩ s s) ∧
    (s.mode ≠ .survey →
      Answered (.modeSet .console item [3]) .console ⟨.accept, 0x50, [1] ++ be4? s.crawlEntry ++ be1 left.length⟩ s
        ({ s with mode := .ready, holds := left }.commit)) ∧
    (s.mode = .survey →
      Answered (.modeSet .console item [1]) .console ⟨.refuse, 0x50, [0x06, 0, 0]⟩ s s ∧
      Answered (.modeSet .console item [2]) .console ⟨.refuse, 0x50, [0x06, 0, 0]⟩ s s ∧
      Answered (.modeSet .console item [3]) .console
        ⟨.accept, 0x50, [0] ++ be4? s.crawlEntry ++ be1 s.holds.length⟩ s s)

/-- R114, R118 and R120: a HOLD PLACE appends an entry with the deck second unless the set holds it, and a HOLD RELEASE
removes the entry it names, the others keeping their order. Nothing else changes. R117 and R119: the first bad field is
refused RANGE with its number, a new entry beyond twelve link entries FULL with detail 3, and a release of an entry that
the set does not hold STATE with detail 1. R115 and R117: which source, reason and qualifier the bytes name, the reasons
that a request may place, and the link sources. -/
def Obligations.HoldRequestsEditTheSet : Prop :=
  (∀ (n : Nat) (source : HoldSource), HoldSource.ofCode? n = some source ↔ source.code = n) ∧
  (∀ (n : Nat) (r : HoldReason),
    (HoldReason.ofCode? n = some r ↔ r.code = n) ∧ (HoldReason.external? n = some r ↔ r.code = n ∧ n ≤ 6)) ∧
  (∀ (kind ix : Nat) (q : Qualifier),
    Qualifier.ofCodes? kind ix = some q ↔ q.kindCode = kind ∧ (kind = 0 ∨ q.indexCode = ix)) ∧
  (∀ source : HoldSource, source.isLink = true ↔ source ≠ .line ∧ source ≠ .part) ∧
  [Port.stationA, .stationB, .feed, .console].map Port.source = [.stationA, .stationB, .feed, .console] ∧
  (∀ (p : Port) (item : Item) (s : State) (from_ reason kind ix : Byte), s.Hears p →
    let place := fun code detail => Refused (.holdPlace p item [reason, kind, ix]) p 0x40 code detail s
    let release := fun code detail => Refused (.holdRelease p item [from_, reason, kind, ix]) p 0x41 code detail s
    let external := 1 ≤ reason.toNat ∧ reason.toNat ≤ 6
    let known := external ∨ 16 ≤ reason.toNat ∧ reason.toNat ≤ 19
    let badIndex := kind = 1 ∧ 96 ≤ ix.toNat ∨ kind = 2 ∧ 24 ≤ ix.toNat
    (¬ external → place 0x05 1) ∧
    (external → 2 < kind.toNat → place 0x05 2) ∧
    (external → badIndex → place 0x05 3) ∧
    (∀ (r : HoldReason) (q : Qualifier), HoldReason.external? reason.toNat = some r →
      Qualifier.ofCodes? kind.toNat ix.toNat = some q →
      (∀ h ∈ s.holds, ¬ (h.source = p.source ∧ h.reason = r ∧ h.qualifier = q)) →
      12 ≤ (s.holds.filter fun h => h.source.isLink).length → place 0x08 3) ∧
    (5 < from_.toNat → release 0x05 1) ∧
    (from_.toNat ≤ 5 → ¬ known → release 0x05 2) ∧
    (from_.toNat ≤ 5 → known → 2 < kind.toNat → release 0x05 3) ∧
    (from_.toNat ≤ 5 → known → badIndex → release 0x05 4) ∧
    ∀ (source : HoldSource) (r : HoldReason) (q : Qualifier), HoldSource.ofCode? from_.toNat = some source →
      HoldReason.ofCode? reason.toNat = some r → Qualifier.ofCodes? kind.toNat ix.toNat = some q →
      (∀ h ∈ s.holds, ¬ (h.source = source ∧ h.reason = r ∧ h.qualifier = q)) → release 0x0A 1) ∧
  ∀ (p : Port) (item : Item) (s : State) (reason kind ix : Byte) (r : HoldReason) (q : Qualifier), s.Hears p →
    Qualifier.ofCodes? kind.toNat ix.toNat = some q →
    let links := fun holds : List Hold => (holds.filter fun h => h.source.isLink).length
    let isIt := fun (source : HoldSource) (h : Hold) => h.source = source ∧ h.reason = r ∧ h.qualifier = q
    (HoldReason.external? reason.toNat = some r →
      ((∀ h ∈ s.holds, ¬ isIt p.source h) → links s.holds < 12 →
        Answered (.holdPlace p item [reason, kind, ix]) p ⟨.accept, 0x40,
          be1 0 ++ be1 s.holds.length ++ be1 (s.holds.length + 1) ++ be1 (links s.holds + 1)⟩ s
          ({ s with holds := s.holds ++ [(⟨p.source, r, q, s.retained.counter⟩ : Hold)] }.commit)) ∧
      (∀ (older newer : List Hold) (h : Hold), s.holds = older ++ h :: newer → isIt p.source h →
        (∀ g ∈ older, ¬ isIt p.source g) →
        Answered (.holdPlace p item [reason, kind, ix]) p ⟨.accept, 0x40,
          be1 1 ++ be1 older.length ++ be1 s.holds.length ++ be1 (links s.holds)⟩ s s)) ∧
    ∀ (from_ : Byte) (source : HoldSource) (older newer : List Hold) (h : Hold),
      HoldSource.ofCode? from_.toNat = some source → HoldReason.ofCode? reason.toNat = some r →
      s.holds = older ++ h :: newer → isIt source h → (∀ g ∈ older, ¬ isIt source g) →
      let left := older ++ newer
      (source = p.source ∨ p = .console ∧ source ≠ .line →
        (r = .exposed → ∀ k : SectorIx, s.exposed k = false) →
        Answered (.holdRelease p item [from_, reason, kind, ix]) p ⟨.accept, 0x41,
          be1 left.length ++ be1 (links left)⟩ s ({ s with holds := left }.commit)) ∧
      (source ≠ p.source → p ≠ .console ∨ source = .line →
        Answered (.holdRelease p item [from_, reason, kind, ix]) p ⟨.refuse, 0x41, [0x0A, 0, 2]⟩ s s) ∧
      (source = p.source ∨ p = .console ∧ source ≠ .line → r = .exposed → (∃ k : SectorIx, s.exposed k = true) →
        Answered (.holdRelease p item [from_, reason, kind, ix]) p ⟨.refuse, 0x41, [0x0A, 0, 3]⟩ s s)

/-- R124 and R125: a change of the HOLD line restarts the filter timer and keeps the filtered state; at the timer's expiry
the level decides the state, the LINE entry is placed at an assertion, removed at a negation, and otherwise left. R126: an
alive timer's expiry leaves its port not alive, and R127: its contact open. Nothing else changes. -/
def Obligations.LineAndAliveTimersAct : Prop :=
  ∀ s : State, s.phase = .running →
    (∀ low : Bool,
      exec (.holdLineChange low) s =
        .next { s with holdLow := low, holdTimer := s.holdTimer || (low != s.holdLow) }) ∧
    (s.holdTimer = true → (s.hasReason .line = true ↔ s.holdFilter = .asserted) →
      let filtered : FilterState := if s.holdLow then .asserted else .negated
      let holds :=
        if s.holdLow then
          if s.holdFilter = .asserted then s.holds
          else s.holds ++ [(⟨.line, .line, .none, s.retained.counter⟩ : Hold)]
        else s.holds.filter fun h : Hold => h.reason != HoldReason.line
      let t := { s with holdTimer := false, holdFilter := filtered, holds := holds }
      Leaves .holdFilterExpiry s t) ∧
    Leaves (.aliveTimerExpiry .stationA) s { s with aliveA := none } ∧
    Leaves (.aliveTimerExpiry .stationB) s { s with aliveB := none } ∧
    { s with aliveA := none }.settle.permitA = false ∧ { s with aliveB := none }.settle.permitB = false

/-! ### The plan (chapter 7) -/

/-- R131: PLAN STAGE writes a value in its parameter's range into the staged field of that number and changes nothing
else; an item that is no parameter is refused ITEM, and a value out of range RANGE. -/
def Obligations.PlanStageWritesOneField : Prop :=
  ∀ (s : State) (item : Item) (payload : List Byte), s.Hears .console → payload.length = 4 →
    let x := s32At payload 0
    (item.toNat = 0 ∨ 25 < item.toNat →
      Answered (.planStage .console item payload) .console ⟨.refuse, 0x57, be1 0x04 ++ be2 item.toNat⟩ s s) ∧
    ∀ n : Param, item.toNat = n.val + 1 →
      (n.lowest ≤ x → x ≤ n.highest →
        ∃ staged : Plan,
          (∀ m : Param, staged.get m = if m = n then x else s.staged.get m) ∧
          Answered (.planStage .console item payload) .console ⟨.accept, 0x57,
            be4i x ++ be4i (s.active.get n) ++
            be1 ((List.finRange 25).filter fun m => decide (staged.get m ≠ s.active.get m)).length⟩ s
            { s with staged := staged }) ∧
      (x < n.lowest ∨ n.highest < x →
        Answered (.planStage .console item payload) .console ⟨.refuse, 0x57, [0x05, 0, 1]⟩ s s)

/-- R132, R133, R135 and R136: an apply whose staged plan passes the seven checks replaces the active plan as one change,
refreshes every flag, runs retirement in every sector in ascending order and places the holds the plan calls for. One that
fails is refused STATE with the first failed check, sets PLAN_REJECTED and changes nothing else. The serial rises and the
flag clears even when nothing differs. What a placement does: ReportEntryOutcomes. -/
def Obligations.PlanApplyReplacesThePlan : Prop :=
  ∀ (s : State) (item : Item), s.Hears .console →
    let q := s.staged
    let checks : List Bool :=
      [decide (q.lnom ≤ q.tol), decide (q.crawlStroke ≤ q.lnom), decide (q.emb + q.freeboard + 2000 ≤ q.hf),
        decide (q.rel 0 + 10000 ≤ q.stk 0), decide (q.rel 1 + 10000 ≤ q.stk 1), decide (q.rel 2 + 10000 ≤ q.stk 2),
        decide (q.rel 3 + 10000 ≤ q.stk 3)]
    (∀ i : Nat, checks.findIdx? (fun ok => !ok) = some i →
      Answered (.planApply .console item []) .console ⟨.refuse, 0x58, be1 0x0A ++ be2 (i + 1)⟩ s
        { s with planRejected := true }) ∧
    (checks.findIdx? (fun ok => !ok) = none →
      let serial := (s.planSerial + 1) % 65536
      let applied := { s with active := q, planSerial := serial, planRejected := false }
      let refreshed := { applied with
        sectors := s.sectors.map fun k : Sector => { k with live := { k.live with chain := k.live.chain.map fun l : Layer =>
          { l with
            released := decide (q.rel l.mixClass ≤ l.maturity)
            stuck := decide (q.stk l.mixClass ≤ l.maturity) } } } }
      let handed := ((refreshed.retireSectors (List.finRange 24)).placeExposed).placeCrawlLimit
      let u := if q = s.active then applied else handed
      Answered (.planApply .console item []) .console ⟨.accept, 0x58,
        be2 serial ++ be1 ((List.finRange 25).filter fun m => decide (q.get m ≠ s.active.get m)).length ++
        be1 u.holds.length⟩ s u.commit)

/-! ### The annunciator, counters and diagnosis (chapters 8 and 9) -/

/-- R158: SILENCE adds every true condition to the mute set and takes none out but those that are false; the sounder falls
silent. Nothing else changes. -/
def Obligations.SilenceMutesTrueConditions : Prop :=
  (∀ c : Conditions, c.code = (if c.held then 1 else 0) + (if c.level then 2 else 0) + (if c.lag then 4 else 0) +
    (if c.stall then 8 else 0) + (if c.probe then 16 else 0)) ∧
  ∀ (s : State) (item : Item), s.Hears .console →
    ∃ t, exec (.silence .console item []) s = .next t ∧
      t.sounder = { playing := none, positionMs := if s.sounder.playing = none then s.sounder.positionMs else 0
                    muted := s.conditions } ∧
      t.sounder.tone = none ∧ t.SameDeck s ∧ t.PermitsFollow ∧ t.aliveA = s.aliveA ∧ t.aliveB = s.aliveB ∧
      t.port .console = { s.port .console with
        receiver := .answering ⟨.accept, 0x59, be1 s.conditions.code ++ be1 s.conditions.code ++ be1 0⟩
        counters := (s.port .console).counters.afterGood .accept } ∧
      ∀ p, p ≠ .console → t.port p = s.port p

/-- R162 and R154: COUNTERS page 0 answers the 24 port counters, its own frame counted, and clears them all; its GOOD
count is not kept. Nothing else changes. -/
def Obligations.CountersPageZeroClears : Prop :=
  ∀ (s : State) (item : Item), s.Hears .console →
    ∃ t, exec (.countersReadClear .console item []) s = .next t ∧ t.SameDeck s ∧ t.OutputsFrom s ∧
      t.aliveA = s.aliveA ∧ t.aliveB = s.aliveB ∧
      (∀ p, p ≠ .console → t.port p = { s.port p with counters := PortCounters.zero }) ∧
      t.port .console = { s.port .console with
        counters := PortCounters.zero
        receiver := .answering ⟨.accept, 0x60,
          [Port.stationA, .stationB, .feed].flatMap (fun q =>
            let k := (s.port q).counters
            be2 k.good ++ be2 k.check ++ be2 k.gap ++ be2 k.length ++ be2 k.overrun ++ be2 k.refused) ++
          (let k := (s.port .console).counters
          be2 (sat16 (k.good + 1)) ++ be2 k.check ++ be2 k.gap ++ be2 k.length ++ be2 k.overrun ++ be2 k.refused)⟩ }

/-- R163 and R164: DIAGNOSE answers what it finds in 21 bytes. A memory found bad stays bad (the model's choice, log entry
6); a bad retained check has the start-up sequence run once the answer has left. Nothing else changes. R165 and R167: a
check is good while it is the CRC over the contents; a memory found bad keeps its contents under a check that is not. -/
def Obligations.DiagnoseAnswersWhatItFinds : Prop :=
  (∀ m : Retained,
    m.formed = crc16 (Config.retainedLayout m.toRetainedCopy) ∧ (m.checkGood = true ↔ m.check = m.formed) ∧
    m.found true = m ∧ m.found false = m.spoil ∧ m.spoil.toRetainedCopy = m.toRetainedCopy ∧ m.spoil.checkGood = false) ∧
  (∀ m : Store,
    (m.checkGood = true ↔ m.check = crc16 (Config.storeLayout m.contents)) ∧
    m.found true = m ∧ m.found false = m.spoil ∧ m.spoil.contents = m.contents ∧ m.spoil.checkGood = false) ∧
  (∀ c : Configuration, Store.holding c = ⟨c, crc16 (Config.storeLayout c)⟩) ∧
  ∀ (s : State) (item : Item) (seen : Findings), s.Hears .console →
    let retainedGood := s.retained.checkGood && seen.retainedIntact
    let storeGood := s.store.checkGood && seen.storeIntact
    let drivenA := decide ((s.mode = .rise ∨ s.mode = .crawl) ∧ s.holds = []) && s.aliveA.isSome
    let drivenB := decide ((s.mode = .rise ∨ s.mode = .crawl) ∧ s.holds = []) && s.aliveB.isSome
    let bit := fun b : Bool => be1 (if b then 1 else 0)
    Answered (.diagnose .console item [] seen) .console ⟨.accept, 0x5F,
      bit (!retainedGood) ++ bit (!storeGood) ++
      (s.probes.toList.flatMap fun p => be1 (match p.state with | .new => 0 | .good => 1 | .fault => 2)) ++
      bit drivenA ++ bit seen.sensedA ++ bit drivenB ++ bit seen.sensedB ++
      be1 ((if drivenA = seen.sensedA then 0 else 1) + (if drivenB = seen.sensedB then 0 else 2) +
        (if seen.load = .present then 0 else 4)) ++
      be1 (match seen.load with | .present => 0 | .openCircuit => 1 | .shorted => 2) ++ bit s.batteryLow⟩ s
      { s with
        retained := s.retained.found seen.retainedIntact
        store := s.store.found seen.storeIntact
        afterAnswer := if retainedGood then s.afterAnswer else .retainedLoss }

/-! ### Speeds, the store and start-up (chapters 8 and 10) -/

/-- R142: PORT SET holds a port's new speed. The line of a port that is listening or gathering takes it at once, dropping
a partial frame uncounted when it changes; the line of a port that is answering, port 4 here, keeps its speed. Nothing
else changes. An item outside 1..4 is refused ITEM, and a speed code above 4 RANGE. A load or a factory restore sends its
four speeds on to the ports in the same way (R141). -/
def Obligations.PortSetHoldsTheSpeed : Prop :=
  [Speed.b9600, .b19200, .b38400, .b57600, .b115200].map Speed.code = [0, 1, 2, 3, 4] ∧
  (∀ (n : Nat) (v : Speed), Speed.ofCode? n = some v ↔ v.code = n) ∧
  (∀ (s : State) (speeds : Vector Speed 4),
    s.setSpeeds speeds = { s with ports := (s.setSpeeds speeds).ports } ∧
    ∀ q : Port,
      let r := s.port q
      let v := speeds[q.ix]
      let atOnce := q ≠ .console ∧ (r.receiver = .listening ∨ ∃ frame, r.receiver = .collecting frame)
      (atOnce → r.lineSpeed ≠ v →
        (s.setSpeeds speeds).port q = { r with speed := v, lineSpeed := v, receiver := .listening }) ∧
      (¬ atOnce ∨ r.lineSpeed = v → (s.setSpeeds speeds).port q = { r with speed := v })) ∧
  (∀ (s : State) (item : Item) (b : Byte), s.Hears .console →
    (item.toNat = 0 ∨ 4 < item.toNat → Refused (.portSet .console item [b]) .console 0x61 0x04 item.toNat s) ∧
    (1 ≤ item.toNat → item.toNat ≤ 4 → 4 < b.toNat → Refused (.portSet .console item [b]) .console 0x61 0x05 1 s)) ∧
  ∀ (s : State) (item : Item) (q : Port) (b : Byte) (v : Speed),
    s.Hears .console → item.toNat = q.number → Speed.ofCode? b.toNat = some v →
    let r := s.port q
    let atOnce := q ≠ .console ∧ (r.receiver = .listening ∨ ∃ frame, r.receiver = .collecting frame)
    (atOnce → r.lineSpeed ≠ v →
      Answered (.portSet .console item [b]) .console ⟨.accept, 0x61, be1 v.code⟩ s
        (s.setPort q { r with speed := v, lineSpeed := v, receiver := .listening })) ∧
    (¬ atOnce ∨ r.lineSpeed = v →
      Answered (.portSet .console item [b]) .console ⟨.accept, 0x61, be1 v.code⟩ s
        (s.setPort q { r with speed := v }))

/-- Section 10.3 with R168 and R169: a save takes a snapshot of the configuration in use and puts port 4 in SERVING; at its
end the store holds the snapshot with a good check and STORE_BAD clears, or the check is bad and STORE_BAD is set. A load
and a factory restore are refused outside SURVEY and READY, then while a grant is live, and otherwise put port 4 in SERVING
with nothing else changed. That a kept jack's change of sector waits for the end too, as R169 says and R80 does not, is the
model's choice (log entry 29). -/
def Obligations.StoreRequestsAreServed : Prop :=
  (∀ (s : State) (item : Item), s.Hears .console →
    ∃ snapshot : Configuration,
      Served (.configSave .console item []) s { s with storeOp := some (.save snapshot s.planSerial) } ∧
      (∀ j : JackIx, snapshot.jacks[j] =
        if (s.jack j).live.state = .undefined then none
        else some ⟨(s.jack j).station, (s.jack j).group, (s.jack j).sector⟩) ∧
      (∀ k : SectorIx, snapshot.sectors[k] =
        if (s.sector k).defined then some ⟨(s.sector k).probe⟩ else none) ∧
      snapshot.plan = s.active ∧ ∀ p : Port, snapshot.speeds[p.ix] = (s.port p).speed) ∧
  (∀ (s : State) (snapshot : Configuration) (serial : Nat), s.phase = .running →
    s.storeOp = some (.save snapshot serial) →
    let console := s.port .console
    Leaves (.configSaveEnd true) s
      ({ s with storeOp := none, storeBad := false, store := Store.holding snapshot }.setPort .console
        { console with receiver := .answering ⟨.accept, 0x5A,
          be2 serial ++ be1 (snapshot.jacks.toList.filter Option.isSome).length ++
          be1 (snapshot.sectors.toList.filter Option.isSome).length⟩ }) ∧
    Leaves (.configSaveEnd false) s
      ({ s with storeOp := none, storeBad := true, store := s.store.spoil }.setPort .console
        { console with
          receiver := .answering ⟨.refuse, 0x5A, [0x0A, 0, 2]⟩
          counters := { console.counters with refused := sat16 (console.counters.refused + 1) } })) ∧
  ∀ (s : State) (item : Item), s.Hears .console →
    let live := ∃ j : JackIx, s.grant? j ≠ none
    (s.mode = .rise ∨ s.mode = .crawl →
      Answered (.configLoad .console item []) .console ⟨.refuse, 0x5B, [0x06, 0, 0]⟩ s s ∧
      Answered (.configFactory .console item []) .console ⟨.refuse, 0x5C, [0x06, 0, 0]⟩ s s) ∧
    (s.mode = .survey ∨ s.mode = .ready →
      (live →
        Answered (.configLoad .console item []) .console ⟨.refuse, 0x5B, [0x0A, 0, 1]⟩ s s ∧
        Answered (.configFactory .console item []) .console ⟨.refuse, 0x5C, [0x0A, 0, 1]⟩ s s) ∧
      (¬ live →
        Served (.configLoad .console item []) s { s with storeOp := some .load } ∧
        Served (.configFactory .console item []) s { s with storeOp := some .factory }))

/-- R169, R44 and R130, the end: a load with a good check, or a factory restore, replaces every definition with live data
kept where the object stays defined, returns the slots of lost chains, replaces both plans, sends the speeds on as PORT SET
does, and then refreshes flags, retires, places the EXPOSED hold and re-derives the mode. That the deck counter of layers
retired counts these retirements, as R36 says and R169 does not, is the model's choice (log entry 28); so is that a kept jack counts in its new sector from this
end on, where R80 has it from the moment the request is taken (log entry 29). A bad check changes
nothing but the store's condition. What a placement does: ReportEntryOutcomes. -/
def Obligations.LoadEndReplacesTheConfiguration : Prop :=
  ∀ (s : State), s.phase = .running →
    let refuse := fun (t : State) (code : Byte) => t.setPort .console { t.port .console with
      receiver := .answering ⟨.refuse, code, [0x0A, 0, 2]⟩
      counters := { (t.port .console).counters with refused := sat16 ((t.port .console).counters.refused + 1) } }
    let accept := fun (t : State) (code : Byte) => t.setPort .console { t.port .console with
      receiver := .answering ⟨.accept, code,
        be2 t.planSerial ++ be1 t.mode.code ++ be1 (t.jacks.toList.filter fun j => j.live.state != JackState.undefined).length ++
        be1 (t.sectors.toList.filter Sector.defined).length⟩ }
    let adopted := fun (t : State) (c : Configuration) =>
      let replaced := ({ t with
        jacks := Vector.ofFn fun j : JackIx =>
          match c.jacks[j] with
          | some d => ⟨d.station, d.group, d.sector,
              if (t.jack j).live.state = JackState.undefined then { JackLive.default with state := .unsurveyed }
              else (t.jack j).live⟩
          | none => ⟨.A, 0, 0, JackLive.default⟩
        sectors := Vector.ofFn fun k : SectorIx =>
          match c.sectors[k] with
          | some d => ⟨true, d.probe, if (t.sector k).defined then (t.sector k).live else SectorLive.default⟩
          | none => ⟨false, none, SectorLive.default⟩
        freeList := ((List.finRange 24).flatMap fun k : SectorIx =>
          if c.sectors[k] = none then (t.sector k).live.chain.map Layer.slot else []).reverse ++ t.freeList
        active := c.plan
        staged := c.plan
        planSerial := (t.planSerial + 1) % 65536
        planRejected := false }).setSpeeds c.speeds
      let changed := (List.finRange 24).filter fun k : SectorIx =>
        ((List.finRange 96).any fun j : JackIx =>
          ((t.jack j).levelBearing && (t.jack j).sector == k) !=
            ((replaced.jack j).levelBearing && (replaced.jack j).sector == k)) ||
        (replaced.sector k).live.chain.any fun l : Layer => !l.released && decide (c.plan.rel l.mixClass ≤ l.maturity)
      ((replaced.refreshAll.retireSectors changed).placeExposed.deriveMode).commit
    (s.storeOp = some .load → ∀ intact : Bool,
      (s.store.checkGood = true → intact = true →
        Leaves (.configLoadEnd intact) s
          (accept (adopted { s with storeOp := none, storeBad := false } s.store.contents) 0x5B)) ∧
      (s.store.checkGood = false ∨ intact = false →
        Leaves (.configLoadEnd intact) s
          (refuse { s with storeOp := none, storeBad := true, store := s.store.found intact } 0x5B))) ∧
    (s.storeOp = some .factory →
      Leaves .configFactoryEnd s (accept (adopted { s with storeOp := none } Configuration.factory) 0x5C))

/-- R173 with R172 and R123: CLEAR DECK, taken in READY with no live grant, clears the live deck and keeps the definitions,
the plan and a LINE hold. -/
def Obligations.ClearDeckClears : Prop :=
  ∀ (s : State) (item : Item), s.Hears .console →
    (s.mode ≠ .ready →
      Answered (.clearDeck .console item []) .console ⟨.refuse, 0x5D, [0x06, 0, 0]⟩ s s) ∧
    (s.mode = .ready → (∃ j : JackIx, s.grant? j ≠ none) →
      Answered (.clearDeck .console item []) .console ⟨.refuse, 0x5D, [0x0A, 0, 1]⟩ s s) ∧
    (s.mode = .ready → (∀ j : JackIx, s.grant? j = none) →
      let empty := (∀ j : JackIx, (s.jack j).live.state = .undefined) ∧ ∀ k : SectorIx, (s.sector k).defined = false
      let mode : Mode := if empty then .ready else .survey
      Answered (.clearDeck .console item []) .console ⟨.accept, 0x5D, be1 mode.code⟩ s
        ({ s with
          jacks := s.jacks.map fun j : Jack =>
            if j.live.state = JackState.undefined then Jack.undefined
            else { j with live := { JackLive.default with state := .unsurveyed } }
          sectors := s.sectors.map fun k : Sector => if k.defined then { k with live := SectorLive.default } else Sector.undefined
          freeList := List.finRange 256
          holds := s.holds.filter fun h : Hold => h.reason == HoldReason.line
          crawlEntry := none
          counters := DeckCounters.zero
          mode := mode
          retained := { s.retained with counter := 0, stamp := 0, runMark := true } }.rewrite))

/-- R165, R166, R168 and R170: what power, reset, restart and the run mark do. While the module is off, in reset or about
to start, its contacts are open and its sounder silent; a save in progress leaves a bad check; the deck clock counts in
every phase and stops at its top; RESTART is answered first. The counter and the run mark are retained contents, so the
check moves with them: one that matched matches, and one that did not does not (the second, log entry 14). Outside the
running phase an event is neither applied nor answered: only the supply, the RESET and HOLD lines, the run mark, the deck
clock and the start-up sequence act, each in its own phases (log entries 9 and 15). While the module runs, an event that it
cannot meet changes nothing but that the outputs are driven (the model's choice, log entry 8). -/
def Obligations.PowerResetAndClockAct : Prop :=
  ∀ s : State,
    let following := fun m : Retained => { m with check := s.retained.check ^^^ s.retained.formed ^^^ m.formed }
    let stopped := fun (t : State) (ph : Phase) =>
      { t with
        phase := ph, afterAnswer := .nothing, storeOp := none
        store := match t.storeOp with
          | some (.save _ _) => t.store.spoil
          | _ => t.store
        permitA := false, permitB := false
        sounder := { playing := none, positionMs := if t.sounder.playing = none then t.sounder.positionMs else 0
                     muted := t.sounder.muted.inter t.conditions } }
    exec .powerFail s = .next (stopped s .off) ∧
    (s.phase ≠ .off → exec .resetLineLow s = .next (stopped { s with resetLow := true } .inReset)) ∧
    (s.phase = .off → exec .resetLineLow s = .next { s with resetLow := true }) ∧
    (s.phase = .inReset → exec .resetLineHigh s = .next (stopped { s with resetLow := false } (.starting false))) ∧
    (s.phase ≠ .inReset → exec .resetLineHigh s = .next { s with resetLow := false }) ∧
    (s.phase = .off →
      exec .powerOn s = .next (stopped s (if s.resetLow then .inReset else .starting false)) ∧
      exec .runMarkBreak s = .next { s with retained := following { s.retained with runMark := false } }) ∧
    exec .deckClockAdvance s =
      .next { s with retained := following { s.retained with counter := min (s.retained.counter + 1) 4294967294 } } ∧
    (∀ item : Item, s.Hears .console →
      Answered (.restart .console item []) .console ⟨.accept, 0x5E, []⟩ s { s with afterAnswer := .restart }) ∧
    (s.phase ≠ .running →
      (∀ low : Bool, exec (.holdLineChange low) s = .next { s with holdLow := low }) ∧
      ∀ c : Instr,
        c ∉ [.deckClockAdvance, .powerOn, .powerFail, .resetLineLow, .resetLineHigh, .runMarkBreak] →
        (∀ low, c ≠ .holdLineChange low) → (∀ retained store battery, c ≠ .startUpSequence retained store battery) →
        exec c s = .next s) ∧
    (s.phase ≠ .off → exec .powerOn s = .next s ∧ exec .runMarkBreak s = .next s) ∧
    (∀ (retained store : Bool) (battery : Nat), (∀ found, s.phase ≠ .starting found) →
      exec (.startUpSequence retained store battery) s = .next s) ∧
    (s.phase = .running →
      (∀ p : Port, (s.port p).receiver = .listening ∨ (s.port p).receiver = .serving [] →
        Leaves (.gapTimerExpiry p) s s ∧ Leaves (.answerSent p) s s) ∧
      (∀ (p : Port) (a : Answer), (s.port p).receiver = .answering a →
        Leaves (.gapTimerExpiry p) s s ∧ Leaves (.frameOverrunDiscard p) s s) ∧
      (∀ (p : Port) (partly : List Byte),
        ((s.port p).receiver = .collecting partly → Leaves (.answerSent p) s s ∧ Leaves (.frameOverrunDiscard p) s s) ∧
        ((s.port p).receiver = .serving partly → Leaves (.answerSent p) s s)) ∧
      (∀ p : Port, (s.port p).receiver = .listening → Leaves (.frameOverrunDiscard p) s s) ∧
      Leaves (.aliveTimerExpiry .feed) s s ∧ Leaves (.aliveTimerExpiry .console) s s ∧
      (∀ j : JackIx, s.grant? j = none → Leaves (.grantExpiry j) s s) ∧
      (s.holdTimer = false → Leaves .holdFilterExpiry s s) ∧
      (s.sampleTimer = false → ∀ samples battery, Leaves (.probeSampleExpiry samples battery) s s) ∧
      (s.intervalTimer = false → Leaves .maturityIntervalExpiry s s) ∧
      ((∀ snapshot serial, s.storeOp ≠ some (.save snapshot serial)) → ∀ good, Leaves (.configSaveEnd good) s s) ∧
      (s.storeOp ≠ some .load → ∀ intact, Leaves (.configLoadEnd intact) s s) ∧
      (s.storeOp ≠ some .factory → Leaves .configFactoryEnd s s)) ∧
    ∀ (p : Port) (code : Byte) (item : Item) (payload : List Byte), Request.ofCode? code ≠ none →
      exec (.unknownRequestCode p code item payload) s = .next s

/-- R171 with R20, R44, R82 and R123: a start-up with both memories good and an intact run mark rebuilds the deck from
retained memory under the stored configuration, credits the outage minute by minute, at most a day of it, and sets the
other blocks to their start-up values. What a placement does: ReportEntryOutcomes. -/
def Obligations.GoodStartUpRebuildsTheDeck : Prop :=
  ∀ (s : State) (battery : Nat),
    s.phase = .starting false → s.retained.checkGood = true → s.retained.runMark = true → s.store.checkGood = true →
    let c := s.store.contents
    let m := s.retained
    let records := { s with
      jacks := Vector.ofFn fun j : JackIx =>
        match c.jacks[j] with
        | none => Jack.undefined
        | some d =>
          let v := m.jacks[j]
          ⟨d.station, d.group, d.sector,
            match v.state with
            | .undefined => { JackLive.default with state := .unsurveyed }
            | .granted => { v with state := .stalled, stallCount := sat16 (v.stallCount + 1) }
            | _ => v⟩
      sectors := Vector.ofFn fun k : SectorIx =>
        match c.sectors[k] with
        | none => Sector.undefined
        | some d => ⟨true, d.probe, if m.sectors[k].defined then m.sectors[k].live else SectorLive.default⟩
      freeList := ((List.finRange 24).flatMap fun k : SectorIx =>
        if c.sectors[k] = none then m.sectors[k].live.chain.map Layer.slot else []).reverse ++ m.freeList
      holds := m.holds.filter fun h : Hold => h.reason != HoldReason.crawlLimit
      crawlEntry := m.crawlEntry
      planSerial := (m.planSerial + 1) % 65536
      counters := { m.counters with expiries := sat32 (m.counters.expiries +
        ((List.finRange 96).filter fun j : JackIx => decide (c.jacks[j] ≠ none ∧ m.jacks[j].state = JackState.granted)).length) }
      active := c.plan
      storeBad := false
      retainLost := false }
    let rebuilt := records.refreshAll.retireSectors ((List.finRange 24).filter fun k : SectorIx =>
      (records.sector k).live.chain.any fun l : Layer => !l.released && decide (c.plan.rel l.mixClass ≤ l.maturity))
    let minutes := min ((m.counter - m.stamp) / 60) 1440
    let credited := Nat.iterate
      (fun t : State => t.interval fun _ _ => (min (max (c.plan.fallback - c.plan.datum) 0) 900).toNat) minutes rebuilt
    let stamped := { credited with retained := { m with stamp := m.counter } }.placeExposed
    exec (.startUpSequence true true battery) s =
      .next { stamped with
        mode := if stamped.incomplete then .survey else .ready
        phase := .running
        grants := Vector.replicate 96 none
        probes := Vector.replicate 12 Probe.fresh
        staged := c.plan
        planRejected := false
        ports := c.speeds.map fun v : Speed => ⟨.listening, v, v, PortCounters.zero⟩
        aliveA := none
        aliveB := none
        holdFilter := .undecided
        holdTimer := true
        sampleTimer := true
        intervalTimer := true
        storeOp := none
        afterAnswer := .nothing
        sounder := ⟨none, 0, Conditions.empty⟩
        batteryLow := if battery < 2700 then true else if battery < 2900 then s.batteryLow else false }.rewrite.settle

/-- R171 and R172: a start-up whose store is bad, whose retained check fails or whose run mark is broken, or that a
DIAGNOSE with a failed retained check started, takes the retained-loss path: the configuration in use stands with every
object at its defaults, and the two flags say what was found. -/
def Obligations.LostStartUpClearsTheDeck : Prop :=
  ∀ (s : State) (found retainedIntact storeIntact : Bool) (battery : Nat),
    s.phase = .starting found →
    let storeGood := s.store.checkGood && storeIntact
    let retainedGood := s.retained.checkGood && retainedIntact && s.retained.runMark && !found
    (storeGood && retainedGood) = false →
    let c := if storeGood then s.store.contents else Configuration.factory
    let t := { s with
      jacks := c.jacks.map fun d : Option JackDef =>
        match d with
        | some d => ⟨d.station, d.group, d.sector, { JackLive.default with state := .unsurveyed }⟩
        | none => Jack.undefined
      sectors := c.sectors.map fun d : Option SectorDef =>
        match d with
        | some d => ⟨true, d.probe, SectorLive.default⟩
        | none => Sector.undefined
      freeList := List.finRange 256
      holds := []
      crawlEntry := none
      planSerial := 0
      counters := DeckCounters.zero
      retained := { s.retained with counter := 0, stamp := 0, runMark := true }
      store := s.store.found storeIntact
      storeBad := !storeGood
      retainLost := !retainedGood
      active := c.plan
      staged := c.plan
      planRejected := false
      mode := if c.jacks.toList.any Option.isSome || c.sectors.toList.any Option.isSome then .survey else .ready
      phase := .running
      grants := Vector.replicate 96 none
      probes := Vector.replicate 12 Probe.fresh
      ports := c.speeds.map fun v : Speed => ⟨.listening, v, v, PortCounters.zero⟩
      aliveA := none
      aliveB := none
      holdFilter := .undecided
      holdTimer := true
      sampleTimer := true
      intervalTimer := true
      storeOp := none
      afterAnswer := .nothing
      permitA := false
      permitB := false
      sounder := ⟨none, 0, Conditions.empty⟩
      batteryLow := if battery < 2700 then true else if battery < 2900 then s.batteryLow else false }
    exec (.startUpSequence retainedIntact storeIntact battery) s = .next t.rewrite

/-! ### What every step keeps -/

/-- R127 with R156 and R159: after every step a PERMIT contact is closed exactly while the module runs, the mode is RISE or
CRAWL, the hold set is empty and its port is alive, and the sounder plays the highest true condition that is not muted, with
only true conditions muted. Section 9.1 with R53, R67, R75, R104 and R116: HELD is a hold set that is not empty, LEVEL the
LEVEL alert, LAG a sector that is LAG, STALL a jack STALLED or SLIP, PROBE a probe in FAULT, in this priority. Driving the
outputs changes nothing else; a pattern that stays selected runs on, and another starts at the beginning of its cycle. -/
def Obligations.OutputsFollowEveryStep : Prop :=
  (let has := fun (x : Conditions) (c : Condition) =>
    match c with
    | .held => x.held
    | .level => x.level
    | .lag => x.lag
    | .stall => x.stall
    | .probe => x.probe
  let rank := fun c : Condition =>
    match c with
    | .held => 1
    | .level => 2
    | .lag => 3
    | .stall => 4
    | .probe => 5
  (∀ (active muted : Conditions) (c : Condition),
    active.select muted = some c ↔ has active c = true ∧ has muted c = false ∧
      ∀ d, has active d = true → has muted d = false → rank c ≤ rank d) ∧
  (∀ active muted : Conditions, active.select muted = none ↔ ∀ c, has active c = true → has muted c = true) ∧
  ∀ (a b : Conditions) (c : Condition), has (a.inter b) c = (has a c && has b c)) ∧
  (∀ s : State,
    (s.conditions.held = true ↔ s.holds ≠ []) ∧
    (s.conditions.level = true ↔ ∃ d, s.spread = some d ∧ s.active.tol + s.active.lalm < d) ∧
    (s.conditions.lag = true ↔ ∃ k, s.lag k = true) ∧
    (s.conditions.stall = true ↔ ∃ j, (s.jack j).live.state = .stalled ∨ (s.jack j).live.state = .slip) ∧
    (s.conditions.probe = true ↔ ∃ n, (s.probe n).state = .fault) ∧
    (∀ st : Station, s.permitOn st = true ↔ s.phase = .running ∧ (s.mode = .rise ∨ s.mode = .crawl) ∧ s.holds = [] ∧
      (match st with
      | .A => s.aliveA
      | .B => s.aliveB) ≠ none) ∧
    s.settle = { s with
      permitA := s.permitOn .A
      permitB := s.permitOn .B
      sounder := s.sounder.reselect (decide (s.phase = .running)) s.conditions }) ∧
  (∀ (o : Sounder) (running : Bool) (active : Conditions),
    let muted := o.muted.inter active
    let now := if running = true then active.select muted else none
    o.reselect running active = ⟨now, if now = o.playing then o.positionMs else 0, muted⟩) ∧
  ∀ s t : State, s.PermitsFollow → s.SounderFollows → step s = .next t → t.PermitsFollow ∧ t.SounderFollows

/-- R106 and R107: after every step the mode is SURVEY exactly while the deck is incomplete: a jack is UNSURVEYED or a
defined sector UNBASED. A mode that is derived again is SURVEY or READY by that, and the passage between the two leaves
RISE and CRAWL alone. -/
def Obligations.ModeMatchesEveryStep : Prop :=
  (∀ s : State,
    (s.incomplete = true ↔ (∃ j, (s.jack j).live.state = .unsurveyed) ∨
      ∃ k, (s.sector k).defined = true ∧ (s.sector k).live.based = false) ∧
    s.deriveMode = { s with mode := if s.incomplete = true then .survey else .ready } ∧
    s.passMode = if s.mode = .rise ∨ s.mode = .crawl then s else s.deriveMode) ∧
  ∀ s t : State, s.ModeMatches → s.LoadIsQuiet → s.GrantsMatch → step s = .next t → t.ModeMatches

/-- R81 and R169: after every step a jack is GRANTED exactly when the table holds its grant, which names its station, and a
load in progress finds no live grant and cannot leave SURVEY or READY. -/
def Obligations.GrantsMatchEveryStep : Prop :=
  ∀ s t : State, s.GrantsMatch → s.LoadIsQuiet → step s = .next t → t.GrantsMatch ∧ t.LoadIsQuiet

/-- R114, R115, R121 and R125: after every step the hold set has at most 16 entries, 12 of them from link sources and one
of each part reason, no two alike, and the LINE entry stands exactly while the filter is ASSERTED. -/
def Obligations.HoldSetStaysLegal : Prop :=
  ∀ s t : State, s.HoldsOk → step s = .next t → t.HoldsOk

/-- R165 and R167: after every step retained memory mirrors the live deck, without its LINE entry. The check covers all its
contents, in the part's own order, and every change of them comes with the check formed over the new ones; only a change of
the counter and the run mark alone, under a check that failed, leaves it failing (log entry 14). A check that matched
fails after a step only where a DIAGNOSE finds the contents lost. A step that changes the store's contents is the end of
a save, which leaves its snapshot there with the CRC-16 formed over it. The two operations that write retained memory
write the whole live deck with the check formed over it; the first leaves memory that already holds it as it is (log entry
25). -/
def Obligations.RetainedMemoryMirrorsTheDeck : Prop :=
  (∀ (s u : State), u = s.commit ∨ u = s.rewrite →
    u = { s with retained := u.retained } ∧ u.RetainedMirrors ∧ u.retained.stamp = s.retained.stamp ∧
    u.retained.counter = s.retained.counter ∧ u.retained.runMark = s.retained.runMark ∧
    (u.retained.check = crc16 (Config.retainedLayout u.retained.toRetainedCopy) ∨
      u = s.commit ∧ u.retained = s.retained)) ∧
  ∀ s t : State, step s = .next t →
    (s.RetainedMirrors → t.RetainedMirrors) ∧
    (t.retained.toRetainedCopy ≠ s.retained.toRetainedCopy →
      t.retained.check = crc16 (Config.retainedLayout t.retained.toRetainedCopy) ∨
      s.retained.checkGood = false ∧ t.retained.checkGood = false ∧
        t.retained = { s.retained with
          counter := t.retained.counter, runMark := t.retained.runMark, check := t.retained.check }) ∧
    (s.retained.checkGood = true → t.retained.checkGood = false →
      ∃ seen rest, seen.retainedIntact = false ∧
        ((∃ p item payload, s.pending = .diagnose p item payload seen :: rest) ∨
          ∃ p b, s.pending = .byteReceived p b seen :: rest)) ∧
    (t.store.contents ≠ s.store.contents →
      t.store.check = crc16 (Config.storeLayout t.store.contents) ∧
      ∃ serial, s.storeOp = some (.save t.store.contents serial))

/-- R22, R25 and R27: after every step each slot of the pool is on the free list or in one chain, no chain is longer than
16, and each stands on its sector's hardened top without gap or overlap. R1, R15 and R169: after every step a defined jack
names a defined sector, a jack or sector that is not defined has its defaults in every field, and the jacks of the stored
configuration, and of one being saved, name only sectors that it defines. -/
def Obligations.PoolStaysWhole : Prop :=
  (∀ s t : State, s.PoolOk → s.ChainsStand → step s = .next t → t.PoolOk ∧ t.ChainsStand) ∧
  ∀ s t : State, s.DefinitionsOk → s.GrantsMatch → step s = .next t → t.DefinitionsOk

/-- R26 and R129: after every step every plan held lies within its ranges, and every layer's flags are those its maturity
has under the active plan; the parameters, their ranges and the factory plan are those of section 7.1, and a refresh writes
the two flags of every layer. R2, R15, R25, R46, R50, R51, R81, R110, R114, R129, R154, R161, R166 and R151: so do the
fields of every jack, sector, layer and hold, live and retained, of every probe and grant, the port and deck counters, the
crawl entry height, the plan serial, the clock and the stamp, and every answer being sent fits its frame. -/
def Obligations.PlansAndFlagsStayRight : Prop :=
  (List.finRange 25).map (fun n : Param => (n.lowest, n.highest, Plan.factory.get n)) =
    [(50, 600, 200), (20, 300, 100), (100, 350, 250), (10, 600, 30), (5, 120, 30), (1, 48, 12), (1, 48, 12),
      (6000, 15000, 11000), (1000, 6000, 2500), (250, 2000, 500), (0, 1000, 500), (-150, 0, -100), (-100, 200, 20),
      (50, 100, 50), (5, 60, 15), (500, 6000, 3000), (1, 30, 5), (10000, 400000, 72000), (20000, 2000000, 180000),
      (10000, 400000, 48000), (20000, 2000000, 150000), (10000, 400000, 108000), (20000, 2000000, 240000),
      (10000, 400000, 72000), (20000, 2000000, 180000)] ∧
  (∀ p : Plan, p.InRange →
    [(p.tol : Int), p.lalm, p.lnom, p.cadence, p.gto, p.budget .A, p.budget .B, p.hf, p.emb, p.freeboard, p.survlim,
      p.datum, p.fallback, p.crawlStroke, p.crawlInt, p.crawlLim, p.aliveTo, p.rel 0, p.stk 0, p.rel 1, p.stk 1, p.rel 2,
      p.stk 2, p.rel 3, p.stk 3] = (List.finRange 25).map p.get) ∧
  (∀ (plan : Plan) (l : Layer), l.refresh plan =
    { l with
      released := decide (plan.rel l.mixClass ≤ l.maturity), stuck := decide (plan.stk l.mixClass ≤ l.maturity) }) ∧
  (∀ s : State, s.refreshAll =
    { s with
      sectors := s.sectors.map fun k : Sector =>
        { k with live := { k.live with chain := k.live.chain.map fun l : Layer => l.refresh s.active } } }) ∧
  (∀ s t : State, s.PlansInRange → s.FlagsFollow → step s = .next t → t.PlansInRange ∧ t.FlagsFollow) ∧
  ∀ s t : State, s.PlansInRange → s.RangesOk → step s = .next t → t.RangesOk

/-- The state after reset has every property that the statements above say a step keeps. -/
def Obligations.ResetKeepsEveryInvariant : Prop :=
  State.reset.PermitsFollow ∧ State.reset.SounderFollows ∧ State.reset.ModeMatches ∧ State.reset.GrantsMatch ∧
  State.reset.LoadIsQuiet ∧ State.reset.HoldsOk ∧ State.reset.RetainedMirrors ∧ State.reset.PoolOk ∧
  State.reset.ChainsStand ∧ State.reset.DefinitionsOk ∧ State.reset.PlansInRange ∧ State.reset.FlagsFollow ∧ State.reset.RangesOk
end

