-- ==== Sys2Proof/Laws/State.lean ====
section
/-! SUPPORT. Every field of the state after every record update of Machine/Ops.lean: one lemma for each, true by rfl. -/

namespace Sys2Proof.Machine

variable (s : State)

/-! ### setJack -/

@[simp] theorem State.setJack_phase (j : JackIx) (x : Jack) : (s.setJack j x).phase = s.phase := rfl
@[simp] theorem State.setJack_jacks (j : JackIx) (x : Jack) : (s.setJack j x).jacks = s.jacks.set j.val x j.isLt := rfl
@[simp] theorem State.setJack_sectors (j : JackIx) (x : Jack) : (s.setJack j x).sectors = s.sectors := rfl
@[simp] theorem State.setJack_freeList (j : JackIx) (x : Jack) : (s.setJack j x).freeList = s.freeList := rfl
@[simp] theorem State.setJack_probes (j : JackIx) (x : Jack) : (s.setJack j x).probes = s.probes := rfl
@[simp] theorem State.setJack_sampleTimer (j : JackIx) (x : Jack) : (s.setJack j x).sampleTimer = s.sampleTimer := rfl
@[simp] theorem State.setJack_intervalTimer (j : JackIx) (x : Jack) : (s.setJack j x).intervalTimer = s.intervalTimer := rfl
@[simp] theorem State.setJack_grants (j : JackIx) (x : Jack) : (s.setJack j x).grants = s.grants := rfl
@[simp] theorem State.setJack_mode (j : JackIx) (x : Jack) : (s.setJack j x).mode = s.mode := rfl
@[simp] theorem State.setJack_crawlEntry (j : JackIx) (x : Jack) : (s.setJack j x).crawlEntry = s.crawlEntry := rfl
@[simp] theorem State.setJack_holds (j : JackIx) (x : Jack) : (s.setJack j x).holds = s.holds := rfl
@[simp] theorem State.setJack_holdLow (j : JackIx) (x : Jack) : (s.setJack j x).holdLow = s.holdLow := rfl
@[simp] theorem State.setJack_holdFilter (j : JackIx) (x : Jack) : (s.setJack j x).holdFilter = s.holdFilter := rfl
@[simp] theorem State.setJack_holdTimer (j : JackIx) (x : Jack) : (s.setJack j x).holdTimer = s.holdTimer := rfl
@[simp] theorem State.setJack_aliveA (j : JackIx) (x : Jack) : (s.setJack j x).aliveA = s.aliveA := rfl
@[simp] theorem State.setJack_aliveB (j : JackIx) (x : Jack) : (s.setJack j x).aliveB = s.aliveB := rfl
@[simp] theorem State.setJack_permitA (j : JackIx) (x : Jack) : (s.setJack j x).permitA = s.permitA := rfl
@[simp] theorem State.setJack_permitB (j : JackIx) (x : Jack) : (s.setJack j x).permitB = s.permitB := rfl
@[simp] theorem State.setJack_active (j : JackIx) (x : Jack) : (s.setJack j x).active = s.active := rfl
@[simp] theorem State.setJack_staged (j : JackIx) (x : Jack) : (s.setJack j x).staged = s.staged := rfl
@[simp] theorem State.setJack_planSerial (j : JackIx) (x : Jack) : (s.setJack j x).planSerial = s.planSerial := rfl
@[simp] theorem State.setJack_planRejected (j : JackIx) (x : Jack) : (s.setJack j x).planRejected = s.planRejected := rfl
@[simp] theorem State.setJack_ports (j : JackIx) (x : Jack) : (s.setJack j x).ports = s.ports := rfl
@[simp] theorem State.setJack_sounder (j : JackIx) (x : Jack) : (s.setJack j x).sounder = s.sounder := rfl
@[simp] theorem State.setJack_counters (j : JackIx) (x : Jack) : (s.setJack j x).counters = s.counters := rfl
@[simp] theorem State.setJack_retained (j : JackIx) (x : Jack) : (s.setJack j x).retained = s.retained := rfl
@[simp] theorem State.setJack_store (j : JackIx) (x : Jack) : (s.setJack j x).store = s.store := rfl
@[simp] theorem State.setJack_storeBad (j : JackIx) (x : Jack) : (s.setJack j x).storeBad = s.storeBad := rfl
@[simp] theorem State.setJack_retainLost (j : JackIx) (x : Jack) : (s.setJack j x).retainLost = s.retainLost := rfl
@[simp] theorem State.setJack_storeOp (j : JackIx) (x : Jack) : (s.setJack j x).storeOp = s.storeOp := rfl
@[simp] theorem State.setJack_afterAnswer (j : JackIx) (x : Jack) : (s.setJack j x).afterAnswer = s.afterAnswer := rfl
@[simp] theorem State.setJack_batteryLow (j : JackIx) (x : Jack) : (s.setJack j x).batteryLow = s.batteryLow := rfl
@[simp] theorem State.setJack_resetLow (j : JackIx) (x : Jack) : (s.setJack j x).resetLow = s.resetLow := rfl
@[simp] theorem State.setJack_pending (j : JackIx) (x : Jack) : (s.setJack j x).pending = s.pending := rfl

/-! ### setLive -/

@[simp] theorem State.setLive_phase (j : JackIx) (x : JackLive) : (s.setLive j x).phase = s.phase := rfl
@[simp] theorem State.setLive_jacks (j : JackIx) (x : JackLive) : (s.setLive j x).jacks = s.jacks.set j.val { s.jack j with live := x } j.isLt := rfl
@[simp] theorem State.setLive_sectors (j : JackIx) (x : JackLive) : (s.setLive j x).sectors = s.sectors := rfl
@[simp] theorem State.setLive_freeList (j : JackIx) (x : JackLive) : (s.setLive j x).freeList = s.freeList := rfl
@[simp] theorem State.setLive_probes (j : JackIx) (x : JackLive) : (s.setLive j x).probes = s.probes := rfl
@[simp] theorem State.setLive_sampleTimer (j : JackIx) (x : JackLive) : (s.setLive j x).sampleTimer = s.sampleTimer := rfl
@[simp] theorem State.setLive_intervalTimer (j : JackIx) (x : JackLive) : (s.setLive j x).intervalTimer = s.intervalTimer := rfl
@[simp] theorem State.setLive_grants (j : JackIx) (x : JackLive) : (s.setLive j x).grants = s.grants := rfl
@[simp] theorem State.setLive_mode (j : JackIx) (x : JackLive) : (s.setLive j x).mode = s.mode := rfl
@[simp] theorem State.setLive_crawlEntry (j : JackIx) (x : JackLive) : (s.setLive j x).crawlEntry = s.crawlEntry := rfl
@[simp] theorem State.setLive_holds (j : JackIx) (x : JackLive) : (s.setLive j x).holds = s.holds := rfl
@[simp] theorem State.setLive_holdLow (j : JackIx) (x : JackLive) : (s.setLive j x).holdLow = s.holdLow := rfl
@[simp] theorem State.setLive_holdFilter (j : JackIx) (x : JackLive) : (s.setLive j x).holdFilter = s.holdFilter := rfl
@[simp] theorem State.setLive_holdTimer (j : JackIx) (x : JackLive) : (s.setLive j x).holdTimer = s.holdTimer := rfl
@[simp] theorem State.setLive_aliveA (j : JackIx) (x : JackLive) : (s.setLive j x).aliveA = s.aliveA := rfl
@[simp] theorem State.setLive_aliveB (j : JackIx) (x : JackLive) : (s.setLive j x).aliveB = s.aliveB := rfl
@[simp] theorem State.setLive_permitA (j : JackIx) (x : JackLive) : (s.setLive j x).permitA = s.permitA := rfl
@[simp] theorem State.setLive_permitB (j : JackIx) (x : JackLive) : (s.setLive j x).permitB = s.permitB := rfl
@[simp] theorem State.setLive_active (j : JackIx) (x : JackLive) : (s.setLive j x).active = s.active := rfl
@[simp] theorem State.setLive_staged (j : JackIx) (x : JackLive) : (s.setLive j x).staged = s.staged := rfl
@[simp] theorem State.setLive_planSerial (j : JackIx) (x : JackLive) : (s.setLive j x).planSerial = s.planSerial := rfl
@[simp] theorem State.setLive_planRejected (j : JackIx) (x : JackLive) : (s.setLive j x).planRejected = s.planRejected := rfl
@[simp] theorem State.setLive_ports (j : JackIx) (x : JackLive) : (s.setLive j x).ports = s.ports := rfl
@[simp] theorem State.setLive_sounder (j : JackIx) (x : JackLive) : (s.setLive j x).sounder = s.sounder := rfl
@[simp] theorem State.setLive_counters (j : JackIx) (x : JackLive) : (s.setLive j x).counters = s.counters := rfl
@[simp] theorem State.setLive_retained (j : JackIx) (x : JackLive) : (s.setLive j x).retained = s.retained := rfl
@[simp] theorem State.setLive_store (j : JackIx) (x : JackLive) : (s.setLive j x).store = s.store := rfl
@[simp] theorem State.setLive_storeBad (j : JackIx) (x : JackLive) : (s.setLive j x).storeBad = s.storeBad := rfl
@[simp] theorem State.setLive_retainLost (j : JackIx) (x : JackLive) : (s.setLive j x).retainLost = s.retainLost := rfl
@[simp] theorem State.setLive_storeOp (j : JackIx) (x : JackLive) : (s.setLive j x).storeOp = s.storeOp := rfl
@[simp] theorem State.setLive_afterAnswer (j : JackIx) (x : JackLive) : (s.setLive j x).afterAnswer = s.afterAnswer := rfl
@[simp] theorem State.setLive_batteryLow (j : JackIx) (x : JackLive) : (s.setLive j x).batteryLow = s.batteryLow := rfl
@[simp] theorem State.setLive_resetLow (j : JackIx) (x : JackLive) : (s.setLive j x).resetLow = s.resetLow := rfl
@[simp] theorem State.setLive_pending (j : JackIx) (x : JackLive) : (s.setLive j x).pending = s.pending := rfl

/-! ### setSector -/

@[simp] theorem State.setSector_phase (k : SectorIx) (x : Sector) : (s.setSector k x).phase = s.phase := rfl
@[simp] theorem State.setSector_jacks (k : SectorIx) (x : Sector) : (s.setSector k x).jacks = s.jacks := rfl
@[simp] theorem State.setSector_sectors (k : SectorIx) (x : Sector) : (s.setSector k x).sectors = s.sectors.set k.val x k.isLt := rfl
@[simp] theorem State.setSector_freeList (k : SectorIx) (x : Sector) : (s.setSector k x).freeList = s.freeList := rfl
@[simp] theorem State.setSector_probes (k : SectorIx) (x : Sector) : (s.setSector k x).probes = s.probes := rfl
@[simp] theorem State.setSector_sampleTimer (k : SectorIx) (x : Sector) : (s.setSector k x).sampleTimer = s.sampleTimer := rfl
@[simp] theorem State.setSector_intervalTimer (k : SectorIx) (x : Sector) : (s.setSector k x).intervalTimer = s.intervalTimer := rfl
@[simp] theorem State.setSector_grants (k : SectorIx) (x : Sector) : (s.setSector k x).grants = s.grants := rfl
@[simp] theorem State.setSector_mode (k : SectorIx) (x : Sector) : (s.setSector k x).mode = s.mode := rfl
@[simp] theorem State.setSector_crawlEntry (k : SectorIx) (x : Sector) : (s.setSector k x).crawlEntry = s.crawlEntry := rfl
@[simp] theorem State.setSector_holds (k : SectorIx) (x : Sector) : (s.setSector k x).holds = s.holds := rfl
@[simp] theorem State.setSector_holdLow (k : SectorIx) (x : Sector) : (s.setSector k x).holdLow = s.holdLow := rfl
@[simp] theorem State.setSector_holdFilter (k : SectorIx) (x : Sector) : (s.setSector k x).holdFilter = s.holdFilter := rfl
@[simp] theorem State.setSector_holdTimer (k : SectorIx) (x : Sector) : (s.setSector k x).holdTimer = s.holdTimer := rfl
@[simp] theorem State.setSector_aliveA (k : SectorIx) (x : Sector) : (s.setSector k x).aliveA = s.aliveA := rfl
@[simp] theorem State.setSector_aliveB (k : SectorIx) (x : Sector) : (s.setSector k x).aliveB = s.aliveB := rfl
@[simp] theorem State.setSector_permitA (k : SectorIx) (x : Sector) : (s.setSector k x).permitA = s.permitA := rfl
@[simp] theorem State.setSector_permitB (k : SectorIx) (x : Sector) : (s.setSector k x).permitB = s.permitB := rfl
@[simp] theorem State.setSector_active (k : SectorIx) (x : Sector) : (s.setSector k x).active = s.active := rfl
@[simp] theorem State.setSector_staged (k : SectorIx) (x : Sector) : (s.setSector k x).staged = s.staged := rfl
@[simp] theorem State.setSector_planSerial (k : SectorIx) (x : Sector) : (s.setSector k x).planSerial = s.planSerial := rfl
@[simp] theorem State.setSector_planRejected (k : SectorIx) (x : Sector) : (s.setSector k x).planRejected = s.planRejected := rfl
@[simp] theorem State.setSector_ports (k : SectorIx) (x : Sector) : (s.setSector k x).ports = s.ports := rfl
@[simp] theorem State.setSector_sounder (k : SectorIx) (x : Sector) : (s.setSector k x).sounder = s.sounder := rfl
@[simp] theorem State.setSector_counters (k : SectorIx) (x : Sector) : (s.setSector k x).counters = s.counters := rfl
@[simp] theorem State.setSector_retained (k : SectorIx) (x : Sector) : (s.setSector k x).retained = s.retained := rfl
@[simp] theorem State.setSector_store (k : SectorIx) (x : Sector) : (s.setSector k x).store = s.store := rfl
@[simp] theorem State.setSector_storeBad (k : SectorIx) (x : Sector) : (s.setSector k x).storeBad = s.storeBad := rfl
@[simp] theorem State.setSector_retainLost (k : SectorIx) (x : Sector) : (s.setSector k x).retainLost = s.retainLost := rfl
@[simp] theorem State.setSector_storeOp (k : SectorIx) (x : Sector) : (s.setSector k x).storeOp = s.storeOp := rfl
@[simp] theorem State.setSector_afterAnswer (k : SectorIx) (x : Sector) : (s.setSector k x).afterAnswer = s.afterAnswer := rfl
@[simp] theorem State.setSector_batteryLow (k : SectorIx) (x : Sector) : (s.setSector k x).batteryLow = s.batteryLow := rfl
@[simp] theorem State.setSector_resetLow (k : SectorIx) (x : Sector) : (s.setSector k x).resetLow = s.resetLow := rfl
@[simp] theorem State.setSector_pending (k : SectorIx) (x : Sector) : (s.setSector k x).pending = s.pending := rfl

/-! ### setSectorLive -/

@[simp] theorem State.setSectorLive_phase (k : SectorIx) (x : SectorLive) : (s.setSectorLive k x).phase = s.phase := rfl
@[simp] theorem State.setSectorLive_jacks (k : SectorIx) (x : SectorLive) : (s.setSectorLive k x).jacks = s.jacks := rfl
@[simp] theorem State.setSectorLive_sectors (k : SectorIx) (x : SectorLive) : (s.setSectorLive k x).sectors = s.sectors.set k.val { s.sector k with live := x } k.isLt := rfl
@[simp] theorem State.setSectorLive_freeList (k : SectorIx) (x : SectorLive) : (s.setSectorLive k x).freeList = s.freeList := rfl
@[simp] theorem State.setSectorLive_probes (k : SectorIx) (x : SectorLive) : (s.setSectorLive k x).probes = s.probes := rfl
@[simp] theorem State.setSectorLive_sampleTimer (k : SectorIx) (x : SectorLive) : (s.setSectorLive k x).sampleTimer = s.sampleTimer := rfl
@[simp] theorem State.setSectorLive_intervalTimer (k : SectorIx) (x : SectorLive) : (s.setSectorLive k x).intervalTimer = s.intervalTimer := rfl
@[simp] theorem State.setSectorLive_grants (k : SectorIx) (x : SectorLive) : (s.setSectorLive k x).grants = s.grants := rfl
@[simp] theorem State.setSectorLive_mode (k : SectorIx) (x : SectorLive) : (s.setSectorLive k x).mode = s.mode := rfl
@[simp] theorem State.setSectorLive_crawlEntry (k : SectorIx) (x : SectorLive) : (s.setSectorLive k x).crawlEntry = s.crawlEntry := rfl
@[simp] theorem State.setSectorLive_holds (k : SectorIx) (x : SectorLive) : (s.setSectorLive k x).holds = s.holds := rfl
@[simp] theorem State.setSectorLive_holdLow (k : SectorIx) (x : SectorLive) : (s.setSectorLive k x).holdLow = s.holdLow := rfl
@[simp] theorem State.setSectorLive_holdFilter (k : SectorIx) (x : SectorLive) : (s.setSectorLive k x).holdFilter = s.holdFilter := rfl
@[simp] theorem State.setSectorLive_holdTimer (k : SectorIx) (x : SectorLive) : (s.setSectorLive k x).holdTimer = s.holdTimer := rfl
@[simp] theorem State.setSectorLive_aliveA (k : SectorIx) (x : SectorLive) : (s.setSectorLive k x).aliveA = s.aliveA := rfl
@[simp] theorem State.setSectorLive_aliveB (k : SectorIx) (x : SectorLive) : (s.setSectorLive k x).aliveB = s.aliveB := rfl
@[simp] theorem State.setSectorLive_permitA (k : SectorIx) (x : SectorLive) : (s.setSectorLive k x).permitA = s.permitA := rfl
@[simp] theorem State.setSectorLive_permitB (k : SectorIx) (x : SectorLive) : (s.setSectorLive k x).permitB = s.permitB := rfl
@[simp] theorem State.setSectorLive_active (k : SectorIx) (x : SectorLive) : (s.setSectorLive k x).active = s.active := rfl
@[simp] theorem State.setSectorLive_staged (k : SectorIx) (x : SectorLive) : (s.setSectorLive k x).staged = s.staged := rfl
@[simp] theorem State.setSectorLive_planSerial (k : SectorIx) (x : SectorLive) : (s.setSectorLive k x).planSerial = s.planSerial := rfl
@[simp] theorem State.setSectorLive_planRejected (k : SectorIx) (x : SectorLive) : (s.setSectorLive k x).planRejected = s.planRejected := rfl
@[simp] theorem State.setSectorLive_ports (k : SectorIx) (x : SectorLive) : (s.setSectorLive k x).ports = s.ports := rfl
@[simp] theorem State.setSectorLive_sounder (k : SectorIx) (x : SectorLive) : (s.setSectorLive k x).sounder = s.sounder := rfl
@[simp] theorem State.setSectorLive_counters (k : SectorIx) (x : SectorLive) : (s.setSectorLive k x).counters = s.counters := rfl
@[simp] theorem State.setSectorLive_retained (k : SectorIx) (x : SectorLive) : (s.setSectorLive k x).retained = s.retained := rfl
@[simp] theorem State.setSectorLive_store (k : SectorIx) (x : SectorLive) : (s.setSectorLive k x).store = s.store := rfl
@[simp] theorem State.setSectorLive_storeBad (k : SectorIx) (x : SectorLive) : (s.setSectorLive k x).storeBad = s.storeBad := rfl
@[simp] theorem State.setSectorLive_retainLost (k : SectorIx) (x : SectorLive) : (s.setSectorLive k x).retainLost = s.retainLost := rfl
@[simp] theorem State.setSectorLive_storeOp (k : SectorIx) (x : SectorLive) : (s.setSectorLive k x).storeOp = s.storeOp := rfl
@[simp] theorem State.setSectorLive_afterAnswer (k : SectorIx) (x : SectorLive) : (s.setSectorLive k x).afterAnswer = s.afterAnswer := rfl
@[simp] theorem State.setSectorLive_batteryLow (k : SectorIx) (x : SectorLive) : (s.setSectorLive k x).batteryLow = s.batteryLow := rfl
@[simp] theorem State.setSectorLive_resetLow (k : SectorIx) (x : SectorLive) : (s.setSectorLive k x).resetLow = s.resetLow := rfl
@[simp] theorem State.setSectorLive_pending (k : SectorIx) (x : SectorLive) : (s.setSectorLive k x).pending = s.pending := rfl

/-! ### setGrant -/

@[simp] theorem State.setGrant_phase (j : JackIx) (g : Option Grant) : (s.setGrant j g).phase = s.phase := rfl
@[simp] theorem State.setGrant_jacks (j : JackIx) (g : Option Grant) : (s.setGrant j g).jacks = s.jacks := rfl
@[simp] theorem State.setGrant_sectors (j : JackIx) (g : Option Grant) : (s.setGrant j g).sectors = s.sectors := rfl
@[simp] theorem State.setGrant_freeList (j : JackIx) (g : Option Grant) : (s.setGrant j g).freeList = s.freeList := rfl
@[simp] theorem State.setGrant_probes (j : JackIx) (g : Option Grant) : (s.setGrant j g).probes = s.probes := rfl
@[simp] theorem State.setGrant_sampleTimer (j : JackIx) (g : Option Grant) : (s.setGrant j g).sampleTimer = s.sampleTimer := rfl
@[simp] theorem State.setGrant_intervalTimer (j : JackIx) (g : Option Grant) : (s.setGrant j g).intervalTimer = s.intervalTimer := rfl
@[simp] theorem State.setGrant_grants (j : JackIx) (g : Option Grant) : (s.setGrant j g).grants = s.grants.set j.val g j.isLt := rfl
@[simp] theorem State.setGrant_mode (j : JackIx) (g : Option Grant) : (s.setGrant j g).mode = s.mode := rfl
@[simp] theorem State.setGrant_crawlEntry (j : JackIx) (g : Option Grant) : (s.setGrant j g).crawlEntry = s.crawlEntry := rfl
@[simp] theorem State.setGrant_holds (j : JackIx) (g : Option Grant) : (s.setGrant j g).holds = s.holds := rfl
@[simp] theorem State.setGrant_holdLow (j : JackIx) (g : Option Grant) : (s.setGrant j g).holdLow = s.holdLow := rfl
@[simp] theorem State.setGrant_holdFilter (j : JackIx) (g : Option Grant) : (s.setGrant j g).holdFilter = s.holdFilter := rfl
@[simp] theorem State.setGrant_holdTimer (j : JackIx) (g : Option Grant) : (s.setGrant j g).holdTimer = s.holdTimer := rfl
@[simp] theorem State.setGrant_aliveA (j : JackIx) (g : Option Grant) : (s.setGrant j g).aliveA = s.aliveA := rfl
@[simp] theorem State.setGrant_aliveB (j : JackIx) (g : Option Grant) : (s.setGrant j g).aliveB = s.aliveB := rfl
@[simp] theorem State.setGrant_permitA (j : JackIx) (g : Option Grant) : (s.setGrant j g).permitA = s.permitA := rfl
@[simp] theorem State.setGrant_permitB (j : JackIx) (g : Option Grant) : (s.setGrant j g).permitB = s.permitB := rfl
@[simp] theorem State.setGrant_active (j : JackIx) (g : Option Grant) : (s.setGrant j g).active = s.active := rfl
@[simp] theorem State.setGrant_staged (j : JackIx) (g : Option Grant) : (s.setGrant j g).staged = s.staged := rfl
@[simp] theorem State.setGrant_planSerial (j : JackIx) (g : Option Grant) : (s.setGrant j g).planSerial = s.planSerial := rfl
@[simp] theorem State.setGrant_planRejected (j : JackIx) (g : Option Grant) : (s.setGrant j g).planRejected = s.planRejected := rfl
@[simp] theorem State.setGrant_ports (j : JackIx) (g : Option Grant) : (s.setGrant j g).ports = s.ports := rfl
@[simp] theorem State.setGrant_sounder (j : JackIx) (g : Option Grant) : (s.setGrant j g).sounder = s.sounder := rfl
@[simp] theorem State.setGrant_counters (j : JackIx) (g : Option Grant) : (s.setGrant j g).counters = s.counters := rfl
@[simp] theorem State.setGrant_retained (j : JackIx) (g : Option Grant) : (s.setGrant j g).retained = s.retained := rfl
@[simp] theorem State.setGrant_store (j : JackIx) (g : Option Grant) : (s.setGrant j g).store = s.store := rfl
@[simp] theorem State.setGrant_storeBad (j : JackIx) (g : Option Grant) : (s.setGrant j g).storeBad = s.storeBad := rfl
@[simp] theorem State.setGrant_retainLost (j : JackIx) (g : Option Grant) : (s.setGrant j g).retainLost = s.retainLost := rfl
@[simp] theorem State.setGrant_storeOp (j : JackIx) (g : Option Grant) : (s.setGrant j g).storeOp = s.storeOp := rfl
@[simp] theorem State.setGrant_afterAnswer (j : JackIx) (g : Option Grant) : (s.setGrant j g).afterAnswer = s.afterAnswer := rfl
@[simp] theorem State.setGrant_batteryLow (j : JackIx) (g : Option Grant) : (s.setGrant j g).batteryLow = s.batteryLow := rfl
@[simp] theorem State.setGrant_resetLow (j : JackIx) (g : Option Grant) : (s.setGrant j g).resetLow = s.resetLow := rfl
@[simp] theorem State.setGrant_pending (j : JackIx) (g : Option Grant) : (s.setGrant j g).pending = s.pending := rfl

/-! ### setPort -/

@[simp] theorem State.setPort_phase (p : Port) (x : PortRec) : (s.setPort p x).phase = s.phase := rfl
@[simp] theorem State.setPort_jacks (p : Port) (x : PortRec) : (s.setPort p x).jacks = s.jacks := rfl
@[simp] theorem State.setPort_sectors (p : Port) (x : PortRec) : (s.setPort p x).sectors = s.sectors := rfl
@[simp] theorem State.setPort_freeList (p : Port) (x : PortRec) : (s.setPort p x).freeList = s.freeList := rfl
@[simp] theorem State.setPort_probes (p : Port) (x : PortRec) : (s.setPort p x).probes = s.probes := rfl
@[simp] theorem State.setPort_sampleTimer (p : Port) (x : PortRec) : (s.setPort p x).sampleTimer = s.sampleTimer := rfl
@[simp] theorem State.setPort_intervalTimer (p : Port) (x : PortRec) : (s.setPort p x).intervalTimer = s.intervalTimer := rfl
@[simp] theorem State.setPort_grants (p : Port) (x : PortRec) : (s.setPort p x).grants = s.grants := rfl
@[simp] theorem State.setPort_mode (p : Port) (x : PortRec) : (s.setPort p x).mode = s.mode := rfl
@[simp] theorem State.setPort_crawlEntry (p : Port) (x : PortRec) : (s.setPort p x).crawlEntry = s.crawlEntry := rfl
@[simp] theorem State.setPort_holds (p : Port) (x : PortRec) : (s.setPort p x).holds = s.holds := rfl
@[simp] theorem State.setPort_holdLow (p : Port) (x : PortRec) : (s.setPort p x).holdLow = s.holdLow := rfl
@[simp] theorem State.setPort_holdFilter (p : Port) (x : PortRec) : (s.setPort p x).holdFilter = s.holdFilter := rfl
@[simp] theorem State.setPort_holdTimer (p : Port) (x : PortRec) : (s.setPort p x).holdTimer = s.holdTimer := rfl
@[simp] theorem State.setPort_aliveA (p : Port) (x : PortRec) : (s.setPort p x).aliveA = s.aliveA := rfl
@[simp] theorem State.setPort_aliveB (p : Port) (x : PortRec) : (s.setPort p x).aliveB = s.aliveB := rfl
@[simp] theorem State.setPort_permitA (p : Port) (x : PortRec) : (s.setPort p x).permitA = s.permitA := rfl
@[simp] theorem State.setPort_permitB (p : Port) (x : PortRec) : (s.setPort p x).permitB = s.permitB := rfl
@[simp] theorem State.setPort_active (p : Port) (x : PortRec) : (s.setPort p x).active = s.active := rfl
@[simp] theorem State.setPort_staged (p : Port) (x : PortRec) : (s.setPort p x).staged = s.staged := rfl
@[simp] theorem State.setPort_planSerial (p : Port) (x : PortRec) : (s.setPort p x).planSerial = s.planSerial := rfl
@[simp] theorem State.setPort_planRejected (p : Port) (x : PortRec) : (s.setPort p x).planRejected = s.planRejected := rfl
@[simp] theorem State.setPort_ports (p : Port) (x : PortRec) : (s.setPort p x).ports = s.ports.set p.ix.val x p.ix.isLt := rfl
@[simp] theorem State.setPort_sounder (p : Port) (x : PortRec) : (s.setPort p x).sounder = s.sounder := rfl
@[simp] theorem State.setPort_counters (p : Port) (x : PortRec) : (s.setPort p x).counters = s.counters := rfl
@[simp] theorem State.setPort_retained (p : Port) (x : PortRec) : (s.setPort p x).retained = s.retained := rfl
@[simp] theorem State.setPort_store (p : Port) (x : PortRec) : (s.setPort p x).store = s.store := rfl
@[simp] theorem State.setPort_storeBad (p : Port) (x : PortRec) : (s.setPort p x).storeBad = s.storeBad := rfl
@[simp] theorem State.setPort_retainLost (p : Port) (x : PortRec) : (s.setPort p x).retainLost = s.retainLost := rfl
@[simp] theorem State.setPort_storeOp (p : Port) (x : PortRec) : (s.setPort p x).storeOp = s.storeOp := rfl
@[simp] theorem State.setPort_afterAnswer (p : Port) (x : PortRec) : (s.setPort p x).afterAnswer = s.afterAnswer := rfl
@[simp] theorem State.setPort_batteryLow (p : Port) (x : PortRec) : (s.setPort p x).batteryLow = s.batteryLow := rfl
@[simp] theorem State.setPort_resetLow (p : Port) (x : PortRec) : (s.setPort p x).resetLow = s.resetLow := rfl
@[simp] theorem State.setPort_pending (p : Port) (x : PortRec) : (s.setPort p x).pending = s.pending := rfl

/-! ### setReceiver -/

@[simp] theorem State.setReceiver_phase (p : Port) (r : Receiver) : (s.setReceiver p r).phase = s.phase := rfl
@[simp] theorem State.setReceiver_jacks (p : Port) (r : Receiver) : (s.setReceiver p r).jacks = s.jacks := rfl
@[simp] theorem State.setReceiver_sectors (p : Port) (r : Receiver) : (s.setReceiver p r).sectors = s.sectors := rfl
@[simp] theorem State.setReceiver_freeList (p : Port) (r : Receiver) : (s.setReceiver p r).freeList = s.freeList := rfl
@[simp] theorem State.setReceiver_probes (p : Port) (r : Receiver) : (s.setReceiver p r).probes = s.probes := rfl
@[simp] theorem State.setReceiver_sampleTimer (p : Port) (r : Receiver) : (s.setReceiver p r).sampleTimer = s.sampleTimer := rfl
@[simp] theorem State.setReceiver_intervalTimer (p : Port) (r : Receiver) : (s.setReceiver p r).intervalTimer = s.intervalTimer := rfl
@[simp] theorem State.setReceiver_grants (p : Port) (r : Receiver) : (s.setReceiver p r).grants = s.grants := rfl
@[simp] theorem State.setReceiver_mode (p : Port) (r : Receiver) : (s.setReceiver p r).mode = s.mode := rfl
@[simp] theorem State.setReceiver_crawlEntry (p : Port) (r : Receiver) : (s.setReceiver p r).crawlEntry = s.crawlEntry := rfl
@[simp] theorem State.setReceiver_holds (p : Port) (r : Receiver) : (s.setReceiver p r).holds = s.holds := rfl
@[simp] theorem State.setReceiver_holdLow (p : Port) (r : Receiver) : (s.setReceiver p r).holdLow = s.holdLow := rfl
@[simp] theorem State.setReceiver_holdFilter (p : Port) (r : Receiver) : (s.setReceiver p r).holdFilter = s.holdFilter := rfl
@[simp] theorem State.setReceiver_holdTimer (p : Port) (r : Receiver) : (s.setReceiver p r).holdTimer = s.holdTimer := rfl
@[simp] theorem State.setReceiver_aliveA (p : Port) (r : Receiver) : (s.setReceiver p r).aliveA = s.aliveA := rfl
@[simp] theorem State.setReceiver_aliveB (p : Port) (r : Receiver) : (s.setReceiver p r).aliveB = s.aliveB := rfl
@[simp] theorem State.setReceiver_permitA (p : Port) (r : Receiver) : (s.setReceiver p r).permitA = s.permitA := rfl
@[simp] theorem State.setReceiver_permitB (p : Port) (r : Receiver) : (s.setReceiver p r).permitB = s.permitB := rfl
@[simp] theorem State.setReceiver_active (p : Port) (r : Receiver) : (s.setReceiver p r).active = s.active := rfl
@[simp] theorem State.setReceiver_staged (p : Port) (r : Receiver) : (s.setReceiver p r).staged = s.staged := rfl
@[simp] theorem State.setReceiver_planSerial (p : Port) (r : Receiver) : (s.setReceiver p r).planSerial = s.planSerial := rfl
@[simp] theorem State.setReceiver_planRejected (p : Port) (r : Receiver) : (s.setReceiver p r).planRejected = s.planRejected := rfl
@[simp] theorem State.setReceiver_ports (p : Port) (r : Receiver) : (s.setReceiver p r).ports = s.ports.set p.ix.val { s.port p with receiver := r } p.ix.isLt := rfl
@[simp] theorem State.setReceiver_sounder (p : Port) (r : Receiver) : (s.setReceiver p r).sounder = s.sounder := rfl
@[simp] theorem State.setReceiver_counters (p : Port) (r : Receiver) : (s.setReceiver p r).counters = s.counters := rfl
@[simp] theorem State.setReceiver_retained (p : Port) (r : Receiver) : (s.setReceiver p r).retained = s.retained := rfl
@[simp] theorem State.setReceiver_store (p : Port) (r : Receiver) : (s.setReceiver p r).store = s.store := rfl
@[simp] theorem State.setReceiver_storeBad (p : Port) (r : Receiver) : (s.setReceiver p r).storeBad = s.storeBad := rfl
@[simp] theorem State.setReceiver_retainLost (p : Port) (r : Receiver) : (s.setReceiver p r).retainLost = s.retainLost := rfl
@[simp] theorem State.setReceiver_storeOp (p : Port) (r : Receiver) : (s.setReceiver p r).storeOp = s.storeOp := rfl
@[simp] theorem State.setReceiver_afterAnswer (p : Port) (r : Receiver) : (s.setReceiver p r).afterAnswer = s.afterAnswer := rfl
@[simp] theorem State.setReceiver_batteryLow (p : Port) (r : Receiver) : (s.setReceiver p r).batteryLow = s.batteryLow := rfl
@[simp] theorem State.setReceiver_resetLow (p : Port) (r : Receiver) : (s.setReceiver p r).resetLow = s.resetLow := rfl
@[simp] theorem State.setReceiver_pending (p : Port) (r : Receiver) : (s.setReceiver p r).pending = s.pending := rfl

/-! ### countPort -/

@[simp] theorem State.countPort_phase (p : Port) (f : PortCounters → PortCounters) : (s.countPort p f).phase = s.phase := rfl
@[simp] theorem State.countPort_jacks (p : Port) (f : PortCounters → PortCounters) : (s.countPort p f).jacks = s.jacks := rfl
@[simp] theorem State.countPort_sectors (p : Port) (f : PortCounters → PortCounters) : (s.countPort p f).sectors = s.sectors := rfl
@[simp] theorem State.countPort_freeList (p : Port) (f : PortCounters → PortCounters) : (s.countPort p f).freeList = s.freeList := rfl
@[simp] theorem State.countPort_probes (p : Port) (f : PortCounters → PortCounters) : (s.countPort p f).probes = s.probes := rfl
@[simp] theorem State.countPort_sampleTimer (p : Port) (f : PortCounters → PortCounters) : (s.countPort p f).sampleTimer = s.sampleTimer := rfl
@[simp] theorem State.countPort_intervalTimer (p : Port) (f : PortCounters → PortCounters) : (s.countPort p f).intervalTimer = s.intervalTimer := rfl
@[simp] theorem State.countPort_grants (p : Port) (f : PortCounters → PortCounters) : (s.countPort p f).grants = s.grants := rfl
@[simp] theorem State.countPort_mode (p : Port) (f : PortCounters → PortCounters) : (s.countPort p f).mode = s.mode := rfl
@[simp] theorem State.countPort_crawlEntry (p : Port) (f : PortCounters → PortCounters) : (s.countPort p f).crawlEntry = s.crawlEntry := rfl
@[simp] theorem State.countPort_holds (p : Port) (f : PortCounters → PortCounters) : (s.countPort p f).holds = s.holds := rfl
@[simp] theorem State.countPort_holdLow (p : Port) (f : PortCounters → PortCounters) : (s.countPort p f).holdLow = s.holdLow := rfl
@[simp] theorem State.countPort_holdFilter (p : Port) (f : PortCounters → PortCounters) : (s.countPort p f).holdFilter = s.holdFilter := rfl
@[simp] theorem State.countPort_holdTimer (p : Port) (f : PortCounters → PortCounters) : (s.countPort p f).holdTimer = s.holdTimer := rfl
@[simp] theorem State.countPort_aliveA (p : Port) (f : PortCounters → PortCounters) : (s.countPort p f).aliveA = s.aliveA := rfl
@[simp] theorem State.countPort_aliveB (p : Port) (f : PortCounters → PortCounters) : (s.countPort p f).aliveB = s.aliveB := rfl
@[simp] theorem State.countPort_permitA (p : Port) (f : PortCounters → PortCounters) : (s.countPort p f).permitA = s.permitA := rfl
@[simp] theorem State.countPort_permitB (p : Port) (f : PortCounters → PortCounters) : (s.countPort p f).permitB = s.permitB := rfl
@[simp] theorem State.countPort_active (p : Port) (f : PortCounters → PortCounters) : (s.countPort p f).active = s.active := rfl
@[simp] theorem State.countPort_staged (p : Port) (f : PortCounters → PortCounters) : (s.countPort p f).staged = s.staged := rfl
@[simp] theorem State.countPort_planSerial (p : Port) (f : PortCounters → PortCounters) : (s.countPort p f).planSerial = s.planSerial := rfl
@[simp] theorem State.countPort_planRejected (p : Port) (f : PortCounters → PortCounters) : (s.countPort p f).planRejected = s.planRejected := rfl
@[simp] theorem State.countPort_ports (p : Port) (f : PortCounters → PortCounters) : (s.countPort p f).ports = s.ports.set p.ix.val { s.port p with counters := f (s.port p).counters } p.ix.isLt := rfl
@[simp] theorem State.countPort_sounder (p : Port) (f : PortCounters → PortCounters) : (s.countPort p f).sounder = s.sounder := rfl
@[simp] theorem State.countPort_counters (p : Port) (f : PortCounters → PortCounters) : (s.countPort p f).counters = s.counters := rfl
@[simp] theorem State.countPort_retained (p : Port) (f : PortCounters → PortCounters) : (s.countPort p f).retained = s.retained := rfl
@[simp] theorem State.countPort_store (p : Port) (f : PortCounters → PortCounters) : (s.countPort p f).store = s.store := rfl
@[simp] theorem State.countPort_storeBad (p : Port) (f : PortCounters → PortCounters) : (s.countPort p f).storeBad = s.storeBad := rfl
@[simp] theorem State.countPort_retainLost (p : Port) (f : PortCounters → PortCounters) : (s.countPort p f).retainLost = s.retainLost := rfl
@[simp] theorem State.countPort_storeOp (p : Port) (f : PortCounters → PortCounters) : (s.countPort p f).storeOp = s.storeOp := rfl
@[simp] theorem State.countPort_afterAnswer (p : Port) (f : PortCounters → PortCounters) : (s.countPort p f).afterAnswer = s.afterAnswer := rfl
@[simp] theorem State.countPort_batteryLow (p : Port) (f : PortCounters → PortCounters) : (s.countPort p f).batteryLow = s.batteryLow := rfl
@[simp] theorem State.countPort_resetLow (p : Port) (f : PortCounters → PortCounters) : (s.countPort p f).resetLow = s.resetLow := rfl
@[simp] theorem State.countPort_pending (p : Port) (f : PortCounters → PortCounters) : (s.countPort p f).pending = s.pending := rfl

/-! ### count -/

@[simp] theorem State.count_phase (f : DeckCounters → DeckCounters) : (s.count f).phase = s.phase := rfl
@[simp] theorem State.count_jacks (f : DeckCounters → DeckCounters) : (s.count f).jacks = s.jacks := rfl
@[simp] theorem State.count_sectors (f : DeckCounters → DeckCounters) : (s.count f).sectors = s.sectors := rfl
@[simp] theorem State.count_freeList (f : DeckCounters → DeckCounters) : (s.count f).freeList = s.freeList := rfl
@[simp] theorem State.count_probes (f : DeckCounters → DeckCounters) : (s.count f).probes = s.probes := rfl
@[simp] theorem State.count_sampleTimer (f : DeckCounters → DeckCounters) : (s.count f).sampleTimer = s.sampleTimer := rfl
@[simp] theorem State.count_intervalTimer (f : DeckCounters → DeckCounters) : (s.count f).intervalTimer = s.intervalTimer := rfl
@[simp] theorem State.count_grants (f : DeckCounters → DeckCounters) : (s.count f).grants = s.grants := rfl
@[simp] theorem State.count_mode (f : DeckCounters → DeckCounters) : (s.count f).mode = s.mode := rfl
@[simp] theorem State.count_crawlEntry (f : DeckCounters → DeckCounters) : (s.count f).crawlEntry = s.crawlEntry := rfl
@[simp] theorem State.count_holds (f : DeckCounters → DeckCounters) : (s.count f).holds = s.holds := rfl
@[simp] theorem State.count_holdLow (f : DeckCounters → DeckCounters) : (s.count f).holdLow = s.holdLow := rfl
@[simp] theorem State.count_holdFilter (f : DeckCounters → DeckCounters) : (s.count f).holdFilter = s.holdFilter := rfl
@[simp] theorem State.count_holdTimer (f : DeckCounters → DeckCounters) : (s.count f).holdTimer = s.holdTimer := rfl
@[simp] theorem State.count_aliveA (f : DeckCounters → DeckCounters) : (s.count f).aliveA = s.aliveA := rfl
@[simp] theorem State.count_aliveB (f : DeckCounters → DeckCounters) : (s.count f).aliveB = s.aliveB := rfl
@[simp] theorem State.count_permitA (f : DeckCounters → DeckCounters) : (s.count f).permitA = s.permitA := rfl
@[simp] theorem State.count_permitB (f : DeckCounters → DeckCounters) : (s.count f).permitB = s.permitB := rfl
@[simp] theorem State.count_active (f : DeckCounters → DeckCounters) : (s.count f).active = s.active := rfl
@[simp] theorem State.count_staged (f : DeckCounters → DeckCounters) : (s.count f).staged = s.staged := rfl
@[simp] theorem State.count_planSerial (f : DeckCounters → DeckCounters) : (s.count f).planSerial = s.planSerial := rfl
@[simp] theorem State.count_planRejected (f : DeckCounters → DeckCounters) : (s.count f).planRejected = s.planRejected := rfl
@[simp] theorem State.count_ports (f : DeckCounters → DeckCounters) : (s.count f).ports = s.ports := rfl
@[simp] theorem State.count_sounder (f : DeckCounters → DeckCounters) : (s.count f).sounder = s.sounder := rfl
@[simp] theorem State.count_counters (f : DeckCounters → DeckCounters) : (s.count f).counters = f s.counters := rfl
@[simp] theorem State.count_retained (f : DeckCounters → DeckCounters) : (s.count f).retained = s.retained := rfl
@[simp] theorem State.count_store (f : DeckCounters → DeckCounters) : (s.count f).store = s.store := rfl
@[simp] theorem State.count_storeBad (f : DeckCounters → DeckCounters) : (s.count f).storeBad = s.storeBad := rfl
@[simp] theorem State.count_retainLost (f : DeckCounters → DeckCounters) : (s.count f).retainLost = s.retainLost := rfl
@[simp] theorem State.count_storeOp (f : DeckCounters → DeckCounters) : (s.count f).storeOp = s.storeOp := rfl
@[simp] theorem State.count_afterAnswer (f : DeckCounters → DeckCounters) : (s.count f).afterAnswer = s.afterAnswer := rfl
@[simp] theorem State.count_batteryLow (f : DeckCounters → DeckCounters) : (s.count f).batteryLow = s.batteryLow := rfl
@[simp] theorem State.count_resetLow (f : DeckCounters → DeckCounters) : (s.count f).resetLow = s.resetLow := rfl
@[simp] theorem State.count_pending (f : DeckCounters → DeckCounters) : (s.count f).pending = s.pending := rfl

/-! ### setAlive -/

@[simp] theorem State.setAlive_phase (st : Station) (t : Option Nat) : (s.setAlive st t).phase = s.phase := by cases st <;> rfl
@[simp] theorem State.setAlive_jacks (st : Station) (t : Option Nat) : (s.setAlive st t).jacks = s.jacks := by cases st <;> rfl
@[simp] theorem State.setAlive_sectors (st : Station) (t : Option Nat) : (s.setAlive st t).sectors = s.sectors := by cases st <;> rfl
@[simp] theorem State.setAlive_freeList (st : Station) (t : Option Nat) : (s.setAlive st t).freeList = s.freeList := by cases st <;> rfl
@[simp] theorem State.setAlive_probes (st : Station) (t : Option Nat) : (s.setAlive st t).probes = s.probes := by cases st <;> rfl
@[simp] theorem State.setAlive_sampleTimer (st : Station) (t : Option Nat) : (s.setAlive st t).sampleTimer = s.sampleTimer := by cases st <;> rfl
@[simp] theorem State.setAlive_intervalTimer (st : Station) (t : Option Nat) : (s.setAlive st t).intervalTimer = s.intervalTimer := by cases st <;> rfl
@[simp] theorem State.setAlive_grants (st : Station) (t : Option Nat) : (s.setAlive st t).grants = s.grants := by cases st <;> rfl
@[simp] theorem State.setAlive_mode (st : Station) (t : Option Nat) : (s.setAlive st t).mode = s.mode := by cases st <;> rfl
@[simp] theorem State.setAlive_crawlEntry (st : Station) (t : Option Nat) : (s.setAlive st t).crawlEntry = s.crawlEntry := by cases st <;> rfl
@[simp] theorem State.setAlive_holds (st : Station) (t : Option Nat) : (s.setAlive st t).holds = s.holds := by cases st <;> rfl
@[simp] theorem State.setAlive_holdLow (st : Station) (t : Option Nat) : (s.setAlive st t).holdLow = s.holdLow := by cases st <;> rfl
@[simp] theorem State.setAlive_holdFilter (st : Station) (t : Option Nat) : (s.setAlive st t).holdFilter = s.holdFilter := by cases st <;> rfl
@[simp] theorem State.setAlive_holdTimer (st : Station) (t : Option Nat) : (s.setAlive st t).holdTimer = s.holdTimer := by cases st <;> rfl
@[simp] theorem State.setAlive_aliveA (st : Station) (t : Option Nat) : (s.setAlive st t).aliveA = if st = .A then t else s.aliveA := by cases st <;> rfl
@[simp] theorem State.setAlive_aliveB (st : Station) (t : Option Nat) : (s.setAlive st t).aliveB = if st = .B then t else s.aliveB := by cases st <;> rfl
@[simp] theorem State.setAlive_permitA (st : Station) (t : Option Nat) : (s.setAlive st t).permitA = s.permitA := by cases st <;> rfl
@[simp] theorem State.setAlive_permitB (st : Station) (t : Option Nat) : (s.setAlive st t).permitB = s.permitB := by cases st <;> rfl
@[simp] theorem State.setAlive_active (st : Station) (t : Option Nat) : (s.setAlive st t).active = s.active := by cases st <;> rfl
@[simp] theorem State.setAlive_staged (st : Station) (t : Option Nat) : (s.setAlive st t).staged = s.staged := by cases st <;> rfl
@[simp] theorem State.setAlive_planSerial (st : Station) (t : Option Nat) : (s.setAlive st t).planSerial = s.planSerial := by cases st <;> rfl
@[simp] theorem State.setAlive_planRejected (st : Station) (t : Option Nat) : (s.setAlive st t).planRejected = s.planRejected := by cases st <;> rfl
@[simp] theorem State.setAlive_ports (st : Station) (t : Option Nat) : (s.setAlive st t).ports = s.ports := by cases st <;> rfl
@[simp] theorem State.setAlive_sounder (st : Station) (t : Option Nat) : (s.setAlive st t).sounder = s.sounder := by cases st <;> rfl
@[simp] theorem State.setAlive_counters (st : Station) (t : Option Nat) : (s.setAlive st t).counters = s.counters := by cases st <;> rfl
@[simp] theorem State.setAlive_retained (st : Station) (t : Option Nat) : (s.setAlive st t).retained = s.retained := by cases st <;> rfl
@[simp] theorem State.setAlive_store (st : Station) (t : Option Nat) : (s.setAlive st t).store = s.store := by cases st <;> rfl
@[simp] theorem State.setAlive_storeBad (st : Station) (t : Option Nat) : (s.setAlive st t).storeBad = s.storeBad := by cases st <;> rfl
@[simp] theorem State.setAlive_retainLost (st : Station) (t : Option Nat) : (s.setAlive st t).retainLost = s.retainLost := by cases st <;> rfl
@[simp] theorem State.setAlive_storeOp (st : Station) (t : Option Nat) : (s.setAlive st t).storeOp = s.storeOp := by cases st <;> rfl
@[simp] theorem State.setAlive_afterAnswer (st : Station) (t : Option Nat) : (s.setAlive st t).afterAnswer = s.afterAnswer := by cases st <;> rfl
@[simp] theorem State.setAlive_batteryLow (st : Station) (t : Option Nat) : (s.setAlive st t).batteryLow = s.batteryLow := by cases st <;> rfl
@[simp] theorem State.setAlive_resetLow (st : Station) (t : Option Nat) : (s.setAlive st t).resetLow = s.resetLow := by cases st <;> rfl
@[simp] theorem State.setAlive_pending (st : Station) (t : Option Nat) : (s.setAlive st t).pending = s.pending := by cases st <;> rfl

/-! ### settle -/

@[simp] theorem State.settle_phase : (s.settle).phase = s.phase := rfl
@[simp] theorem State.settle_jacks : (s.settle).jacks = s.jacks := rfl
@[simp] theorem State.settle_sectors : (s.settle).sectors = s.sectors := rfl
@[simp] theorem State.settle_freeList : (s.settle).freeList = s.freeList := rfl
@[simp] theorem State.settle_probes : (s.settle).probes = s.probes := rfl
@[simp] theorem State.settle_sampleTimer : (s.settle).sampleTimer = s.sampleTimer := rfl
@[simp] theorem State.settle_intervalTimer : (s.settle).intervalTimer = s.intervalTimer := rfl
@[simp] theorem State.settle_grants : (s.settle).grants = s.grants := rfl
@[simp] theorem State.settle_mode : (s.settle).mode = s.mode := rfl
@[simp] theorem State.settle_crawlEntry : (s.settle).crawlEntry = s.crawlEntry := rfl
@[simp] theorem State.settle_holds : (s.settle).holds = s.holds := rfl
@[simp] theorem State.settle_holdLow : (s.settle).holdLow = s.holdLow := rfl
@[simp] theorem State.settle_holdFilter : (s.settle).holdFilter = s.holdFilter := rfl
@[simp] theorem State.settle_holdTimer : (s.settle).holdTimer = s.holdTimer := rfl
@[simp] theorem State.settle_aliveA : (s.settle).aliveA = s.aliveA := rfl
@[simp] theorem State.settle_aliveB : (s.settle).aliveB = s.aliveB := rfl
@[simp] theorem State.settle_permitA : (s.settle).permitA = s.permitOn .A := rfl
@[simp] theorem State.settle_permitB : (s.settle).permitB = s.permitOn .B := rfl
@[simp] theorem State.settle_active : (s.settle).active = s.active := rfl
@[simp] theorem State.settle_staged : (s.settle).staged = s.staged := rfl
@[simp] theorem State.settle_planSerial : (s.settle).planSerial = s.planSerial := rfl
@[simp] theorem State.settle_planRejected : (s.settle).planRejected = s.planRejected := rfl
@[simp] theorem State.settle_ports : (s.settle).ports = s.ports := rfl
@[simp] theorem State.settle_sounder : (s.settle).sounder = s.sounder.reselect (s.phase = .running) s.conditions := rfl
@[simp] theorem State.settle_counters : (s.settle).counters = s.counters := rfl
@[simp] theorem State.settle_retained : (s.settle).retained = s.retained := rfl
@[simp] theorem State.settle_store : (s.settle).store = s.store := rfl
@[simp] theorem State.settle_storeBad : (s.settle).storeBad = s.storeBad := rfl
@[simp] theorem State.settle_retainLost : (s.settle).retainLost = s.retainLost := rfl
@[simp] theorem State.settle_storeOp : (s.settle).storeOp = s.storeOp := rfl
@[simp] theorem State.settle_afterAnswer : (s.settle).afterAnswer = s.afterAnswer := rfl
@[simp] theorem State.settle_batteryLow : (s.settle).batteryLow = s.batteryLow := rfl
@[simp] theorem State.settle_resetLow : (s.settle).resetLow = s.resetLow := rfl
@[simp] theorem State.settle_pending : (s.settle).pending = s.pending := rfl

/-! ### commit -/

@[simp] theorem State.commit_phase : (s.commit).phase = s.phase := rfl
@[simp] theorem State.commit_jacks : (s.commit).jacks = s.jacks := rfl
@[simp] theorem State.commit_sectors : (s.commit).sectors = s.sectors := rfl
@[simp] theorem State.commit_freeList : (s.commit).freeList = s.freeList := rfl
@[simp] theorem State.commit_probes : (s.commit).probes = s.probes := rfl
@[simp] theorem State.commit_sampleTimer : (s.commit).sampleTimer = s.sampleTimer := rfl
@[simp] theorem State.commit_intervalTimer : (s.commit).intervalTimer = s.intervalTimer := rfl
@[simp] theorem State.commit_grants : (s.commit).grants = s.grants := rfl
@[simp] theorem State.commit_mode : (s.commit).mode = s.mode := rfl
@[simp] theorem State.commit_crawlEntry : (s.commit).crawlEntry = s.crawlEntry := rfl
@[simp] theorem State.commit_holds : (s.commit).holds = s.holds := rfl
@[simp] theorem State.commit_holdLow : (s.commit).holdLow = s.holdLow := rfl
@[simp] theorem State.commit_holdFilter : (s.commit).holdFilter = s.holdFilter := rfl
@[simp] theorem State.commit_holdTimer : (s.commit).holdTimer = s.holdTimer := rfl
@[simp] theorem State.commit_aliveA : (s.commit).aliveA = s.aliveA := rfl
@[simp] theorem State.commit_aliveB : (s.commit).aliveB = s.aliveB := rfl
@[simp] theorem State.commit_permitA : (s.commit).permitA = s.permitA := rfl
@[simp] theorem State.commit_permitB : (s.commit).permitB = s.permitB := rfl
@[simp] theorem State.commit_active : (s.commit).active = s.active := rfl
@[simp] theorem State.commit_staged : (s.commit).staged = s.staged := rfl
@[simp] theorem State.commit_planSerial : (s.commit).planSerial = s.planSerial := rfl
@[simp] theorem State.commit_planRejected : (s.commit).planRejected = s.planRejected := rfl
@[simp] theorem State.commit_ports : (s.commit).ports = s.ports := rfl
@[simp] theorem State.commit_sounder : (s.commit).sounder = s.sounder := rfl
@[simp] theorem State.commit_counters : (s.commit).counters = s.counters := rfl
@[simp] theorem State.commit_store : (s.commit).store = s.store := rfl
@[simp] theorem State.commit_storeBad : (s.commit).storeBad = s.storeBad := rfl
@[simp] theorem State.commit_retainLost : (s.commit).retainLost = s.retainLost := rfl
@[simp] theorem State.commit_storeOp : (s.commit).storeOp = s.storeOp := rfl
@[simp] theorem State.commit_afterAnswer : (s.commit).afterAnswer = s.afterAnswer := rfl
@[simp] theorem State.commit_batteryLow : (s.commit).batteryLow = s.batteryLow := rfl
@[simp] theorem State.commit_resetLow : (s.commit).resetLow = s.resetLow := rfl
@[simp] theorem State.commit_pending : (s.commit).pending = s.pending := rfl
@[simp] theorem State.commit_retained_jacks : s.commit.retained.jacks = s.jacks.map Jack.live := rfl
@[simp] theorem State.commit_retained_sectors : s.commit.retained.sectors = s.sectors.map fun k => ⟨k.defined, k.live⟩ := rfl
@[simp] theorem State.commit_retained_freeList : s.commit.retained.freeList = s.freeList := rfl
@[simp] theorem State.commit_retained_holds : s.commit.retained.holds = s.holds.filter fun h => h.reason != .line := rfl
@[simp] theorem State.commit_retained_crawlEntry : s.commit.retained.crawlEntry = s.crawlEntry := rfl
@[simp] theorem State.commit_retained_planSerial : s.commit.retained.planSerial = s.planSerial := rfl
@[simp] theorem State.commit_retained_counters : s.commit.retained.counters = s.counters := rfl
@[simp] theorem State.commit_retained_stamp : s.commit.retained.stamp = s.retained.stamp := rfl
@[simp] theorem State.commit_retained_counter : s.commit.retained.counter = s.retained.counter := rfl
@[simp] theorem State.commit_retained_runMark : s.commit.retained.runMark = s.retained.runMark := rfl
@[simp] theorem State.commit_retained_check : s.commit.retained.check = if s.liveCopy = s.retained.toRetainedCopy then s.retained.check else s.liveCopy.formed := rfl

/-! ### rewrite -/

@[simp] theorem State.rewrite_phase : (s.rewrite).phase = s.phase := rfl
@[simp] theorem State.rewrite_jacks : (s.rewrite).jacks = s.jacks := rfl
@[simp] theorem State.rewrite_sectors : (s.rewrite).sectors = s.sectors := rfl
@[simp] theorem State.rewrite_freeList : (s.rewrite).freeList = s.freeList := rfl
@[simp] theorem State.rewrite_probes : (s.rewrite).probes = s.probes := rfl
@[simp] theorem State.rewrite_sampleTimer : (s.rewrite).sampleTimer = s.sampleTimer := rfl
@[simp] theorem State.rewrite_intervalTimer : (s.rewrite).intervalTimer = s.intervalTimer := rfl
@[simp] theorem State.rewrite_grants : (s.rewrite).grants = s.grants := rfl
@[simp] theorem State.rewrite_mode : (s.rewrite).mode = s.mode := rfl
@[simp] theorem State.rewrite_crawlEntry : (s.rewrite).crawlEntry = s.crawlEntry := rfl
@[simp] theorem State.rewrite_holds : (s.rewrite).holds = s.holds := rfl
@[simp] theorem State.rewrite_holdLow : (s.rewrite).holdLow = s.holdLow := rfl
@[simp] theorem State.rewrite_holdFilter : (s.rewrite).holdFilter = s.holdFilter := rfl
@[simp] theorem State.rewrite_holdTimer : (s.rewrite).holdTimer = s.holdTimer := rfl
@[simp] theorem State.rewrite_aliveA : (s.rewrite).aliveA = s.aliveA := rfl
@[simp] theorem State.rewrite_aliveB : (s.rewrite).aliveB = s.aliveB := rfl
@[simp] theorem State.rewrite_permitA : (s.rewrite).permitA = s.permitA := rfl
@[simp] theorem State.rewrite_permitB : (s.rewrite).permitB = s.permitB := rfl
@[simp] theorem State.rewrite_active : (s.rewrite).active = s.active := rfl
@[simp] theorem State.rewrite_staged : (s.rewrite).staged = s.staged := rfl
@[simp] theorem State.rewrite_planSerial : (s.rewrite).planSerial = s.planSerial := rfl
@[simp] theorem State.rewrite_planRejected : (s.rewrite).planRejected = s.planRejected := rfl
@[simp] theorem State.rewrite_ports : (s.rewrite).ports = s.ports := rfl
@[simp] theorem State.rewrite_sounder : (s.rewrite).sounder = s.sounder := rfl
@[simp] theorem State.rewrite_counters : (s.rewrite).counters = s.counters := rfl
@[simp] theorem State.rewrite_store : (s.rewrite).store = s.store := rfl
@[simp] theorem State.rewrite_storeBad : (s.rewrite).storeBad = s.storeBad := rfl
@[simp] theorem State.rewrite_retainLost : (s.rewrite).retainLost = s.retainLost := rfl
@[simp] theorem State.rewrite_storeOp : (s.rewrite).storeOp = s.storeOp := rfl
@[simp] theorem State.rewrite_afterAnswer : (s.rewrite).afterAnswer = s.afterAnswer := rfl
@[simp] theorem State.rewrite_batteryLow : (s.rewrite).batteryLow = s.batteryLow := rfl
@[simp] theorem State.rewrite_resetLow : (s.rewrite).resetLow = s.resetLow := rfl
@[simp] theorem State.rewrite_pending : (s.rewrite).pending = s.pending := rfl
@[simp] theorem State.rewrite_retained_jacks : s.rewrite.retained.jacks = s.jacks.map Jack.live := rfl
@[simp] theorem State.rewrite_retained_sectors : s.rewrite.retained.sectors = s.sectors.map fun k => ⟨k.defined, k.live⟩ := rfl
@[simp] theorem State.rewrite_retained_freeList : s.rewrite.retained.freeList = s.freeList := rfl
@[simp] theorem State.rewrite_retained_holds : s.rewrite.retained.holds = s.holds.filter fun h => h.reason != .line := rfl
@[simp] theorem State.rewrite_retained_crawlEntry : s.rewrite.retained.crawlEntry = s.crawlEntry := rfl
@[simp] theorem State.rewrite_retained_planSerial : s.rewrite.retained.planSerial = s.planSerial := rfl
@[simp] theorem State.rewrite_retained_counters : s.rewrite.retained.counters = s.counters := rfl
@[simp] theorem State.rewrite_retained_stamp : s.rewrite.retained.stamp = s.retained.stamp := rfl
@[simp] theorem State.rewrite_retained_counter : s.rewrite.retained.counter = s.retained.counter := rfl
@[simp] theorem State.rewrite_retained_runMark : s.rewrite.retained.runMark = s.retained.runMark := rfl
@[simp] theorem State.rewrite_retained_check : s.rewrite.retained.check = s.liveCopy.formed := rfl

/-! ### pushHold -/

@[simp] theorem State.pushHold_phase (source : HoldSource) (r : HoldReason) (q : Qualifier) : (s.pushHold source r q).phase = s.phase := rfl
@[simp] theorem State.pushHold_jacks (source : HoldSource) (r : HoldReason) (q : Qualifier) : (s.pushHold source r q).jacks = s.jacks := rfl
@[simp] theorem State.pushHold_sectors (source : HoldSource) (r : HoldReason) (q : Qualifier) : (s.pushHold source r q).sectors = s.sectors := rfl
@[simp] theorem State.pushHold_freeList (source : HoldSource) (r : HoldReason) (q : Qualifier) : (s.pushHold source r q).freeList = s.freeList := rfl
@[simp] theorem State.pushHold_probes (source : HoldSource) (r : HoldReason) (q : Qualifier) : (s.pushHold source r q).probes = s.probes := rfl
@[simp] theorem State.pushHold_sampleTimer (source : HoldSource) (r : HoldReason) (q : Qualifier) : (s.pushHold source r q).sampleTimer = s.sampleTimer := rfl
@[simp] theorem State.pushHold_intervalTimer (source : HoldSource) (r : HoldReason) (q : Qualifier) : (s.pushHold source r q).intervalTimer = s.intervalTimer := rfl
@[simp] theorem State.pushHold_grants (source : HoldSource) (r : HoldReason) (q : Qualifier) : (s.pushHold source r q).grants = s.grants := rfl
@[simp] theorem State.pushHold_mode (source : HoldSource) (r : HoldReason) (q : Qualifier) : (s.pushHold source r q).mode = s.mode := rfl
@[simp] theorem State.pushHold_crawlEntry (source : HoldSource) (r : HoldReason) (q : Qualifier) : (s.pushHold source r q).crawlEntry = s.crawlEntry := rfl
@[simp] theorem State.pushHold_holds (source : HoldSource) (r : HoldReason) (q : Qualifier) : (s.pushHold source r q).holds = s.holds ++ [⟨source, r, q, s.clock⟩] := rfl
@[simp] theorem State.pushHold_holdLow (source : HoldSource) (r : HoldReason) (q : Qualifier) : (s.pushHold source r q).holdLow = s.holdLow := rfl
@[simp] theorem State.pushHold_holdFilter (source : HoldSource) (r : HoldReason) (q : Qualifier) : (s.pushHold source r q).holdFilter = s.holdFilter := rfl
@[simp] theorem State.pushHold_holdTimer (source : HoldSource) (r : HoldReason) (q : Qualifier) : (s.pushHold source r q).holdTimer = s.holdTimer := rfl
@[simp] theorem State.pushHold_aliveA (source : HoldSource) (r : HoldReason) (q : Qualifier) : (s.pushHold source r q).aliveA = s.aliveA := rfl
@[simp] theorem State.pushHold_aliveB (source : HoldSource) (r : HoldReason) (q : Qualifier) : (s.pushHold source r q).aliveB = s.aliveB := rfl
@[simp] theorem State.pushHold_permitA (source : HoldSource) (r : HoldReason) (q : Qualifier) : (s.pushHold source r q).permitA = s.permitA := rfl
@[simp] theorem State.pushHold_permitB (source : HoldSource) (r : HoldReason) (q : Qualifier) : (s.pushHold source r q).permitB = s.permitB := rfl
@[simp] theorem State.pushHold_active (source : HoldSource) (r : HoldReason) (q : Qualifier) : (s.pushHold source r q).active = s.active := rfl
@[simp] theorem State.pushHold_staged (source : HoldSource) (r : HoldReason) (q : Qualifier) : (s.pushHold source r q).staged = s.staged := rfl
@[simp] theorem State.pushHold_planSerial (source : HoldSource) (r : HoldReason) (q : Qualifier) : (s.pushHold source r q).planSerial = s.planSerial := rfl
@[simp] theorem State.pushHold_planRejected (source : HoldSource) (r : HoldReason) (q : Qualifier) : (s.pushHold source r q).planRejected = s.planRejected := rfl
@[simp] theorem State.pushHold_ports (source : HoldSource) (r : HoldReason) (q : Qualifier) : (s.pushHold source r q).ports = s.ports := rfl
@[simp] theorem State.pushHold_sounder (source : HoldSource) (r : HoldReason) (q : Qualifier) : (s.pushHold source r q).sounder = s.sounder := rfl
@[simp] theorem State.pushHold_counters (source : HoldSource) (r : HoldReason) (q : Qualifier) : (s.pushHold source r q).counters = s.counters := rfl
@[simp] theorem State.pushHold_retained (source : HoldSource) (r : HoldReason) (q : Qualifier) : (s.pushHold source r q).retained = s.retained := rfl
@[simp] theorem State.pushHold_store (source : HoldSource) (r : HoldReason) (q : Qualifier) : (s.pushHold source r q).store = s.store := rfl
@[simp] theorem State.pushHold_storeBad (source : HoldSource) (r : HoldReason) (q : Qualifier) : (s.pushHold source r q).storeBad = s.storeBad := rfl
@[simp] theorem State.pushHold_retainLost (source : HoldSource) (r : HoldReason) (q : Qualifier) : (s.pushHold source r q).retainLost = s.retainLost := rfl
@[simp] theorem State.pushHold_storeOp (source : HoldSource) (r : HoldReason) (q : Qualifier) : (s.pushHold source r q).storeOp = s.storeOp := rfl
@[simp] theorem State.pushHold_afterAnswer (source : HoldSource) (r : HoldReason) (q : Qualifier) : (s.pushHold source r q).afterAnswer = s.afterAnswer := rfl
@[simp] theorem State.pushHold_batteryLow (source : HoldSource) (r : HoldReason) (q : Qualifier) : (s.pushHold source r q).batteryLow = s.batteryLow := rfl
@[simp] theorem State.pushHold_resetLow (source : HoldSource) (r : HoldReason) (q : Qualifier) : (s.pushHold source r q).resetLow = s.resetLow := rfl
@[simp] theorem State.pushHold_pending (source : HoldSource) (r : HoldReason) (q : Qualifier) : (s.pushHold source r q).pending = s.pending := rfl

/-! ### dropReason -/

@[simp] theorem State.dropReason_phase (r : HoldReason) : (s.dropReason r).phase = s.phase := rfl
@[simp] theorem State.dropReason_jacks (r : HoldReason) : (s.dropReason r).jacks = s.jacks := rfl
@[simp] theorem State.dropReason_sectors (r : HoldReason) : (s.dropReason r).sectors = s.sectors := rfl
@[simp] theorem State.dropReason_freeList (r : HoldReason) : (s.dropReason r).freeList = s.freeList := rfl
@[simp] theorem State.dropReason_probes (r : HoldReason) : (s.dropReason r).probes = s.probes := rfl
@[simp] theorem State.dropReason_sampleTimer (r : HoldReason) : (s.dropReason r).sampleTimer = s.sampleTimer := rfl
@[simp] theorem State.dropReason_intervalTimer (r : HoldReason) : (s.dropReason r).intervalTimer = s.intervalTimer := rfl
@[simp] theorem State.dropReason_grants (r : HoldReason) : (s.dropReason r).grants = s.grants := rfl
@[simp] theorem State.dropReason_mode (r : HoldReason) : (s.dropReason r).mode = s.mode := rfl
@[simp] theorem State.dropReason_crawlEntry (r : HoldReason) : (s.dropReason r).crawlEntry = s.crawlEntry := rfl
@[simp] theorem State.dropReason_holds (r : HoldReason) : (s.dropReason r).holds = s.holds.filter fun h => h.reason != r := rfl
@[simp] theorem State.dropReason_holdLow (r : HoldReason) : (s.dropReason r).holdLow = s.holdLow := rfl
@[simp] theorem State.dropReason_holdFilter (r : HoldReason) : (s.dropReason r).holdFilter = s.holdFilter := rfl
@[simp] theorem State.dropReason_holdTimer (r : HoldReason) : (s.dropReason r).holdTimer = s.holdTimer := rfl
@[simp] theorem State.dropReason_aliveA (r : HoldReason) : (s.dropReason r).aliveA = s.aliveA := rfl
@[simp] theorem State.dropReason_aliveB (r : HoldReason) : (s.dropReason r).aliveB = s.aliveB := rfl
@[simp] theorem State.dropReason_permitA (r : HoldReason) : (s.dropReason r).permitA = s.permitA := rfl
@[simp] theorem State.dropReason_permitB (r : HoldReason) : (s.dropReason r).permitB = s.permitB := rfl
@[simp] theorem State.dropReason_active (r : HoldReason) : (s.dropReason r).active = s.active := rfl
@[simp] theorem State.dropReason_staged (r : HoldReason) : (s.dropReason r).staged = s.staged := rfl
@[simp] theorem State.dropReason_planSerial (r : HoldReason) : (s.dropReason r).planSerial = s.planSerial := rfl
@[simp] theorem State.dropReason_planRejected (r : HoldReason) : (s.dropReason r).planRejected = s.planRejected := rfl
@[simp] theorem State.dropReason_ports (r : HoldReason) : (s.dropReason r).ports = s.ports := rfl
@[simp] theorem State.dropReason_sounder (r : HoldReason) : (s.dropReason r).sounder = s.sounder := rfl
@[simp] theorem State.dropReason_counters (r : HoldReason) : (s.dropReason r).counters = s.counters := rfl
@[simp] theorem State.dropReason_retained (r : HoldReason) : (s.dropReason r).retained = s.retained := rfl
@[simp] theorem State.dropReason_store (r : HoldReason) : (s.dropReason r).store = s.store := rfl
@[simp] theorem State.dropReason_storeBad (r : HoldReason) : (s.dropReason r).storeBad = s.storeBad := rfl
@[simp] theorem State.dropReason_retainLost (r : HoldReason) : (s.dropReason r).retainLost = s.retainLost := rfl
@[simp] theorem State.dropReason_storeOp (r : HoldReason) : (s.dropReason r).storeOp = s.storeOp := rfl
@[simp] theorem State.dropReason_afterAnswer (r : HoldReason) : (s.dropReason r).afterAnswer = s.afterAnswer := rfl
@[simp] theorem State.dropReason_batteryLow (r : HoldReason) : (s.dropReason r).batteryLow = s.batteryLow := rfl
@[simp] theorem State.dropReason_resetLow (r : HoldReason) : (s.dropReason r).resetLow = s.resetLow := rfl
@[simp] theorem State.dropReason_pending (r : HoldReason) : (s.dropReason r).pending = s.pending := rfl

/-! ### deriveMode -/

@[simp] theorem State.deriveMode_phase : (s.deriveMode).phase = s.phase := rfl
@[simp] theorem State.deriveMode_jacks : (s.deriveMode).jacks = s.jacks := rfl
@[simp] theorem State.deriveMode_sectors : (s.deriveMode).sectors = s.sectors := rfl
@[simp] theorem State.deriveMode_freeList : (s.deriveMode).freeList = s.freeList := rfl
@[simp] theorem State.deriveMode_probes : (s.deriveMode).probes = s.probes := rfl
@[simp] theorem State.deriveMode_sampleTimer : (s.deriveMode).sampleTimer = s.sampleTimer := rfl
@[simp] theorem State.deriveMode_intervalTimer : (s.deriveMode).intervalTimer = s.intervalTimer := rfl
@[simp] theorem State.deriveMode_grants : (s.deriveMode).grants = s.grants := rfl
@[simp] theorem State.deriveMode_mode : (s.deriveMode).mode = if s.incomplete then .survey else .ready := rfl
@[simp] theorem State.deriveMode_crawlEntry : (s.deriveMode).crawlEntry = s.crawlEntry := rfl
@[simp] theorem State.deriveMode_holds : (s.deriveMode).holds = s.holds := rfl
@[simp] theorem State.deriveMode_holdLow : (s.deriveMode).holdLow = s.holdLow := rfl
@[simp] theorem State.deriveMode_holdFilter : (s.deriveMode).holdFilter = s.holdFilter := rfl
@[simp] theorem State.deriveMode_holdTimer : (s.deriveMode).holdTimer = s.holdTimer := rfl
@[simp] theorem State.deriveMode_aliveA : (s.deriveMode).aliveA = s.aliveA := rfl
@[simp] theorem State.deriveMode_aliveB : (s.deriveMode).aliveB = s.aliveB := rfl
@[simp] theorem State.deriveMode_permitA : (s.deriveMode).permitA = s.permitA := rfl
@[simp] theorem State.deriveMode_permitB : (s.deriveMode).permitB = s.permitB := rfl
@[simp] theorem State.deriveMode_active : (s.deriveMode).active = s.active := rfl
@[simp] theorem State.deriveMode_staged : (s.deriveMode).staged = s.staged := rfl
@[simp] theorem State.deriveMode_planSerial : (s.deriveMode).planSerial = s.planSerial := rfl
@[simp] theorem State.deriveMode_planRejected : (s.deriveMode).planRejected = s.planRejected := rfl
@[simp] theorem State.deriveMode_ports : (s.deriveMode).ports = s.ports := rfl
@[simp] theorem State.deriveMode_sounder : (s.deriveMode).sounder = s.sounder := rfl
@[simp] theorem State.deriveMode_counters : (s.deriveMode).counters = s.counters := rfl
@[simp] theorem State.deriveMode_retained : (s.deriveMode).retained = s.retained := rfl
@[simp] theorem State.deriveMode_store : (s.deriveMode).store = s.store := rfl
@[simp] theorem State.deriveMode_storeBad : (s.deriveMode).storeBad = s.storeBad := rfl
@[simp] theorem State.deriveMode_retainLost : (s.deriveMode).retainLost = s.retainLost := rfl
@[simp] theorem State.deriveMode_storeOp : (s.deriveMode).storeOp = s.storeOp := rfl
@[simp] theorem State.deriveMode_afterAnswer : (s.deriveMode).afterAnswer = s.afterAnswer := rfl
@[simp] theorem State.deriveMode_batteryLow : (s.deriveMode).batteryLow = s.batteryLow := rfl
@[simp] theorem State.deriveMode_resetLow : (s.deriveMode).resetLow = s.resetLow := rfl
@[simp] theorem State.deriveMode_pending : (s.deriveMode).pending = s.pending := rfl

end Sys2Proof.Machine
end

