-- ==== Sys2Proof/Laws/Checks.lean ====
section
/-! SUPPORT. What the two memory checks say after a write, after damage, and as a look finds them. -/

namespace Sys2Proof.Machine

theorem Config.damage_ne_zero : Config.damage ≠ 0 := by
  have h := Config.damageIndex.isLt
  intro e
  have := congrArg BitVec.toNat e
  simp only [Config.damage, BitVec.toNat_ofNat, BitVec.ofNat_eq_ofNat] at this
  omega

theorem xor_damage_ne (x : BitVec 16) : x ^^^ Config.damage ≠ x := by
  intro e
  have h : x ^^^ (x ^^^ Config.damage) = x ^^^ x := congrArg (x ^^^ ·) e
  rw [← BitVec.xor_assoc, BitVec.xor_self, BitVec.zero_xor] at h
  exact Config.damage_ne_zero h

/-! ### Retained memory -/

variable (m : Retained) (n : Store) (s : State)

@[simp] theorem Retained.spoil_toRetainedCopy : m.spoil.toRetainedCopy = m.toRetainedCopy := rfl
@[simp] theorem Retained.spoil_counter : m.spoil.counter = m.counter := rfl
@[simp] theorem Retained.spoil_runMark : m.spoil.runMark = m.runMark := rfl
@[simp] theorem Retained.spoil_checkGood : m.spoil.checkGood = false := beq_false_of_ne (xor_damage_ne m.formed)

@[simp] theorem Retained.recheck_toRetainedCopy (c : Retained) : (m.recheck c).toRetainedCopy = c.toRetainedCopy := rfl
@[simp] theorem Retained.recheck_self : m.recheck m = m := by simp [Retained.recheck]
@[simp] theorem Retained.recheck_checkGood (c : Retained) : (m.recheck c).checkGood = m.checkGood := by
  have h : m.check ^^^ m.formed ^^^ c.formed = c.formed ↔ m.check = m.formed := by
    constructor <;> intro e
    · have : m.check ^^^ m.formed ^^^ c.formed ^^^ c.formed = c.formed ^^^ c.formed := congrArg (· ^^^ c.formed) e
      rw [BitVec.xor_assoc (m.check ^^^ m.formed), BitVec.xor_self, BitVec.xor_zero] at this
      exact BitVec.xor_eq_zero_iff.mp this
    · simp [e]
  simp only [Retained.checkGood, Retained.recheck, beq_eq_beq]
  exact h

@[simp] theorem Retained.found_true : m.found true = m := rfl
@[simp] theorem Retained.found_false : m.found false = m.spoil := rfl
@[simp] theorem Retained.found_toRetainedCopy (intact : Bool) : (m.found intact).toRetainedCopy = m.toRetainedCopy := by
  cases intact <;> rfl
@[simp] theorem Retained.found_checkGood (intact : Bool) : (m.found intact).checkGood = (intact && m.checkGood) := by
  cases intact <;> simp

@[simp] theorem Retained.cleared_checkGood : Retained.cleared.checkGood = true := beq_self_eq_true _

@[simp] theorem State.rewrite_checkGood : s.rewrite.retained.checkGood = true := beq_self_eq_true _

/-- A commit that changes the contents leaves a matching check, and one that changes nothing leaves the check held. -/
theorem State.commit_checkGood :
    s.commit.retained.checkGood = true ∨
    s.liveCopy = s.retained.toRetainedCopy ∧ s.commit.retained = s.retained := by
  by_cases h : s.liveCopy = s.retained.toRetainedCopy
  · right
    refine ⟨h, ?_⟩
    unfold State.commit
    simp only [h, if_true]
  · left
    unfold State.commit Retained.checkGood
    simp [h]

/-! ### The store -/

@[simp] theorem Store.holding_contents (c : Configuration) : (Store.holding c).contents = c := rfl
@[simp] theorem Store.holding_checkGood (c : Configuration) : (Store.holding c).checkGood = true := beq_self_eq_true _
@[simp] theorem Store.spoil_contents : n.spoil.contents = n.contents := rfl
@[simp] theorem Store.spoil_checkGood : n.spoil.checkGood = false := beq_false_of_ne (xor_damage_ne n.contents.formed)
@[simp] theorem Store.found_true : n.found true = n := rfl
@[simp] theorem Store.found_false : n.found false = n.spoil := rfl
@[simp] theorem Store.found_contents (intact : Bool) : (n.found intact).contents = n.contents := by cases intact <;> rfl
@[simp] theorem Store.found_checkGood (intact : Bool) : (n.found intact).checkGood = (intact && n.checkGood) := by
  cases intact <;> simp

end Sys2Proof.Machine
end

