-- ==== Sys2Proof/Laws/Ops.lean ====
section
/-! SUPPORT. What each shared operation can do, said once: records after an update, the placements of holds, retirement,
the outputs and retained memory after an event, and how a frame is received, judged and answered. -/

namespace Sys2Proof.Machine

variable (s : State)

/-! ### Records after an update -/

theorem Port.ix_inj {p q : Port} (h : p.ix = q.ix) : p = q := by cases p <;> cases q <;> first | rfl | cases h

theorem State.jack_setJack (i j : JackIx) (x : Jack) : (s.setJack j x).jack i = if i = j then x else s.jack i := by
  simp only [State.jack, State.setJack, Fin.getElem_fin, Vector.getElem_set]
  by_cases h : i = j
  · simp [h]
  · have : j.val ≠ i.val := fun e => h (Fin.ext e.symm)
    simp [h, this]

theorem State.jack_setLive (i j : JackIx) (x : JackLive) :
    (s.setLive j x).jack i = if i = j then { s.jack j with live := x } else s.jack i := by
  rw [State.setLive, State.jack_setJack]

theorem State.sector_setSector (i k : SectorIx) (x : Sector) :
    (s.setSector k x).sector i = if i = k then x else s.sector i := by
  simp only [State.sector, State.setSector, Fin.getElem_fin, Vector.getElem_set]
  by_cases h : i = k
  · simp [h]
  · have : k.val ≠ i.val := fun e => h (Fin.ext e.symm)
    simp [h, this]

theorem State.sector_setSectorLive (i k : SectorIx) (x : SectorLive) :
    (s.setSectorLive k x).sector i = if i = k then { s.sector k with live := x } else s.sector i := by
  rw [State.setSectorLive, State.sector_setSector]

theorem State.grant?_setGrant (i j : JackIx) (g : Option Grant) :
    (s.setGrant j g).grant? i = if i = j then g else s.grant? i := by
  simp only [State.grant?, State.setGrant, Fin.getElem_fin, Vector.getElem_set]
  by_cases h : i = j
  · simp [h]
  · have : j.val ≠ i.val := fun e => h (Fin.ext e.symm)
    simp [h, this]

theorem State.port_setPort (p q : Port) (x : PortRec) : (s.setPort p x).port q = if q = p then x else s.port q := by
  simp only [State.port, State.setPort, Fin.getElem_fin, Vector.getElem_set]
  by_cases h : q = p
  · simp [h]
  · have : p.ix.val ≠ q.ix.val := fun e => h (Port.ix_inj (Fin.ext e.symm))
    simp [h, this]

@[simp] theorem State.setPort_setPort (p : Port) (x y : PortRec) : (s.setPort p x).setPort p y = s.setPort p y := by
  simp [State.setPort]

@[simp] theorem State.setPort_port (p : Port) : s.setPort p (s.port p) = s := by
  simp [State.setPort, State.port]

/-! ### What follows every event -/

theorem State.settle_permitsFollow : s.settle.PermitsFollow := ⟨rfl, rfl⟩

theorem Conditions.inter_inter_self (a b : Conditions) : (a.inter b).inter b = a.inter b := by
  simp [Conditions.inter]

/-- Selecting again keeps the position within the cycle of the pattern playing. -/
theorem Sounder.reselect_inCycle (o : Sounder) (powered : Bool) (active : Conditions) (h : o.inCycle = true) :
    (o.reselect powered active).inCycle = true := by
  have key : ∀ now : Option Condition,
      Sounder.inCycle ⟨now, if now = o.playing then o.positionMs else 0, o.muted.inter active⟩ = true := by
    intro now
    by_cases e : now = o.playing
    · rw [if_pos e, e]; exact h
    · rw [if_neg e]
      cases now with
      | none => rfl
      | some c => cases c <;> rfl
  exact key _

theorem State.settle_sounderFollows (h : s.sounder.inCycle = true) : s.settle.SounderFollows := by
  refine ⟨?_, Conditions.inter_inter_self _ _, Sounder.reselect_inCycle _ _ _ h⟩
  by_cases hp : s.phase = .running
  · simp [State.settle, Sounder.reselect, hp, State.conditions]
    rfl
  · simp [State.settle, Sounder.reselect, hp]

theorem State.commit_retainedMirrors : s.commit.RetainedMirrors := ⟨rfl, rfl, rfl, rfl, rfl, rfl, rfl⟩

theorem State.rewrite_retainedMirrors : s.rewrite.RetainedMirrors := ⟨rfl, rfl, rfl, rfl, rfl, rfl, rfl⟩

theorem whenRunning_running {f : State → State} (h : s.phase = .running) : whenRunning s f = .next (f s).settle := by
  simp [whenRunning, h]

theorem whenRunning_stopped {f : State → State} (h : s.phase ≠ .running) : whenRunning s f = .next s := by
  simp [whenRunning, h]

theorem whenRunning_cases {f : State → State} {t : State} (h : whenRunning s f = .next t) :
    (s.phase = .running ∧ t = (f s).settle) ∨ (s.phase ≠ .running ∧ t = s) := by
  by_cases hp : s.phase = .running
  · rw [whenRunning_running s hp] at h; exact .inl ⟨hp, by injection h with h; exact h.symm⟩
  · rw [whenRunning_stopped s hp] at h; exact .inr ⟨hp, by injection h with h; exact h.symm⟩

/-! ### The hold set and the mode -/

/-- A part placement changes the hold set alone: it appends its entry, or finds one of its reason. -/
theorem State.placePart_cases (a : HoldSource) (r : HoldReason) (q : Qualifier) :
    (s.hasReason r = true ∧ s.placePart a r q = s) ∨
    (s.hasReason r = false ∧ s.placePart a r q = { s with holds := s.holds ++ [⟨a, r, q, s.clock⟩] }) := by
  by_cases h : s.hasReason r = true
  · exact .inl ⟨h, by simp [State.placePart, h]⟩
  · exact .inr ⟨by simpa using h, by simp [State.placePart, h, State.pushHold]⟩

/-- The EXPOSED placement appends at most one entry, naming the lowest sector that is EXPOSED. -/
theorem State.placeExposed_cases :
    s.placeExposed = s ∨
    ∃ k, s.firstExposed = some k ∧ s.hasReason .exposed = false ∧
      s.placeExposed = { s with holds := s.holds ++ [⟨.part, .exposed, .sector k, s.clock⟩] } := by
  unfold State.placeExposed
  cases h : s.firstExposed with
  | none => exact .inl rfl
  | some k =>
    rcases s.placePart_cases .part .exposed (.sector k) with ⟨_, e⟩ | ⟨hr, e⟩
    · exact .inl e
    · exact .inr ⟨k, rfl, hr, e⟩

/-- The CRAWL_LIMIT placement appends at most one entry, and only in CRAWL. -/
theorem State.placeCrawlLimit_cases :
    s.placeCrawlLimit = s ∨
    (s.crawlReached = true ∧ s.hasReason .crawlLimit = false ∧
      s.placeCrawlLimit = { s with holds := s.holds ++ [⟨.part, .crawlLimit, .none, s.clock⟩] }) := by
  by_cases h : s.crawlReached = true
  · rcases s.placePart_cases .part .crawlLimit .none with ⟨_, e⟩ | ⟨hr, e⟩
    · exact .inl (by simp [State.placeCrawlLimit, h, e])
    · exact .inr ⟨h, hr, by simp [State.placeCrawlLimit, h, e]⟩
  · exact .inl (by simp [State.placeCrawlLimit, h])

theorem State.crawlReached_crawl (h : s.crawlReached = true) : s.mode = .crawl := by
  cases hm : s.mode <;> simp [State.crawlReached, hm] at h ⊢

theorem State.crawlAfter_cases (before : Option Nat) :
    s.crawlAfter before = s ∨
    (s.crawlReached = true ∧ s.hasReason .crawlLimit = false ∧
      s.crawlAfter before = { s with holds := s.holds ++ [⟨.part, .crawlLimit, .none, s.clock⟩] }) := by
  unfold State.crawlAfter
  split
  · exact s.placeCrawlLimit_cases
  · exact .inl rfl

/-- The automatic passage changes the mode alone, and leaves RISE and CRAWL. -/
theorem State.passMode_cases :
    (s.mode.moving = true ∧ s.passMode = s) ∨
    (s.mode.moving = false ∧ s.passMode = { s with mode := if s.incomplete then .survey else .ready }) := by
  by_cases h : s.mode.moving = true
  · exact .inl ⟨h, by simp [State.passMode, h]⟩
  · exact .inr ⟨by simpa using h, by simp [State.passMode, h, State.deriveMode]⟩

/-! ### Retirement and maturity -/

/-- A run of retirement touches one sector's chain, hardened top and count, the free list and one deck counter. -/
theorem State.retireSector_cases (k : SectorIx) :
    s.retireSector k = s ∨
    ∃ d, s.dLow k = some d ∧ (s.sector k).inSlip = true ∧
      let v := (s.sector k).live
      let gone := v.chain.takeWhile (retirable ((d : Int) - s.active.hf))
      s.retireSector k =
        { s with
          freeList := (gone.map Layer.slot).reverse ++ s.freeList
          counters := { s.counters with layersRetired := sat32 (s.counters.layersRetired + gone.length) }
          sectors := s.sectors.set k.val { s.sector k with live := { v with
            hHard := fillOver v.hHard gone
            chain := v.chain.dropWhile (retirable ((d : Int) - s.active.hf))
            retired := sat16 (v.retired + gone.length) } } k.isLt } := by
  unfold State.retireSector
  cases h : s.dLow k with
  | none => exact .inl rfl
  | some d =>
    by_cases hb : (s.sector k).inSlip = true
    · exact .inr ⟨d, rfl, hb, if_pos hb⟩
    · exact .inl (if_neg hb)

@[simp] theorem State.retireSector_jacks (k : SectorIx) : (s.retireSector k).jacks = s.jacks := by
  rcases s.retireSector_cases k with e | ⟨_, _, _, e⟩ <;> rw [e]

@[simp] theorem State.retireSector_active (k : SectorIx) : (s.retireSector k).active = s.active := by
  rcases s.retireSector_cases k with e | ⟨_, _, _, e⟩ <;> rw [e]

@[simp] theorem State.retireSector_holds (k : SectorIx) : (s.retireSector k).holds = s.holds := by
  rcases s.retireSector_cases k with e | ⟨_, _, _, e⟩ <;> rw [e]

/-- A run leaves every other sector alone. -/
theorem State.retireSector_other {i k : SectorIx} (h : i ≠ k) : (s.retireSector k).sector i = s.sector i := by
  rcases s.retireSector_cases k with e | ⟨_, _, _, e⟩
  · rw [e]
  · rw [e]; exact (s.sector_setSector i k _).trans (if_neg h)

@[simp] theorem State.retireSectors_nil : s.retireSectors [] = s := rfl

@[simp] theorem State.retireSectors_cons (k : SectorIx) (ks : List SectorIx) :
    s.retireSectors (k :: ks) = (s.retireSector k).retireSectors ks := rfl

/-- What holds before runs of retirement and is kept by each run holds after them. -/
theorem State.retireSectors_induction {P : State → Prop} (step : ∀ s k, P s → P (State.retireSector s k))
    (ks : List SectorIx) : ∀ s, P s → P (s.retireSectors ks) := by
  induction ks with
  | nil => exact fun s h => h
  | cons k ks ih => exact fun s h => ih _ (step s k h)

/-- What is kept by each delivery is kept by an interval. -/
theorem State.interval_induction {P : State → Prop} (step : ∀ s k n, P s → P (State.deliver s k n))
    (inc : State → SectorIx → Nat) (h : P s) : P (s.interval inc) := by
  unfold State.interval
  generalize List.finRange 24 = ks
  induction ks generalizing s with
  | nil => exact h
  | cons k ks ih =>
    refine ih _ ?_
    show P (if (s.sector k).served then s.deliver k (inc s k) else s)
    split
    · exact step s k _ h
    · exact h

/-! ### Receiving and answering frames -/

theorem State.onFrame_open (p : Port) (n : Nat) (judge : State → State) (h : (s.port p).receiver.open = true)
    (hn : n ≤ 56) : s.onFrame p n judge = judge (s.setReceiver p .listening) := by
  unfold State.onFrame
  cases hr : (s.port p).receiver <;> simp_all [Receiver.open, Nat.not_lt.mpr]

theorem State.onFrame_answering (p : Port) (n : Nat) (judge : State → State) (a : Answer)
    (h : (s.port p).receiver = .answering a) : s.onFrame p n judge = s := by
  simp [State.onFrame, h]

theorem State.onFrame_serving (p : Port) (n : Nat) (judge : State → State) (frame : List Byte)
    (h : (s.port p).receiver = .serving frame) (hn : n ≤ 56) : s.onFrame p n judge = s.overrunDiscard p := by
  simp [State.onFrame, h, Nat.not_lt.mpr hn]

/-- What a known request meets: the port, the length, then its serving rule (R148). -/
theorem State.take_cases (r : Request) (p : Port) (n : Nat) (serve : State → State × Reply) :
    s.take r p n serve =
      if r.allowed p = false then (s.goodFrame p).respond p r.code (.refuse .role p.number)
      else if r.lengthOk n = false then (s.goodFrame p).respond p r.code (.refuse .length n)
      else (serve (s.goodFrame p)).1.respond p r.code (serve (s.goodFrame p)).2 := by
  unfold State.take
  cases r.allowed p <;> cases r.lengthOk n <;> rfl

/-- A request row on a port that hears: the frame leaves the receiver, is judged, and the outputs follow. -/
theorem request_hears (r : Request) (p : Port) (n : Nat) (serve : State → State × Reply) (h : s.Hears p)
    (hn : n ≤ 56) :
    request r p n serve s = .next (((s.setReceiver p .listening).take r p n serve).settle) := by
  rw [request, whenRunning_running s h.1, s.onFrame_open p n _ h.2 hn]

/-- A request row always completes. -/
theorem request_next (r : Request) (p : Port) (n : Nat) (serve : State → State × Reply) :
    ∃ t, request r p n serve s = .next t := by
  unfold request whenRunning
  exact ⟨_, rfl⟩

/-- Counting a good frame and starting the alive timer change the port's counters and the timers alone (R126, R144). -/
theorem State.goodFrame_eq (p : Port) :
    s.goodFrame p =
      { s with
        ports := (s.setPort p { s.port p with counters :=
          { (s.port p).counters with good := sat16 ((s.port p).counters.good + 1) } }).ports
        aliveA := if p = .stationA then some s.active.aliveTo else s.aliveA
        aliveB := if p = .stationB then some s.active.aliveTo else s.aliveB } := by
  cases p <;> rfl

/-- An answer changes the port alone (R150, R154). -/
theorem State.respond_cases (p : Port) (code : Byte) (r : Reply) :
    ∃ x, s.respond p code r = s.setPort p x ∧
      match r with
      | .accept payload => x = { s.port p with receiver := .answering ⟨.accept, code, payload⟩ }
      | .refuse c d =>
        x = { s.port p with
          receiver := .answering ⟨.refuse, code, refusal c d⟩
          counters := { (s.port p).counters with refused := sat16 ((s.port p).counters.refused + 1) } }
      | .serve => x = { s.port p with receiver := .serving [] } := by
  cases r with
  | accept payload => exact ⟨_, rfl, rfl⟩
  | refuse c d =>
    refine ⟨_, ?_, rfl⟩
    simp [State.respond, State.setReceiver, State.countPort, State.port_setPort]
  | serve => exact ⟨_, rfl, rfl⟩

/-! ### The conditions do not see the link -/

/-- The ports, the alive timers and the outputs play no part in the conditions. -/
theorem State.conditions_link (ports : Vector PortRec 4) (a b : Option Nat) (pa pb : Bool) (o : Sounder) :
    { s with ports := ports, aliveA := a, aliveB := b, permitA := pa, permitB := pb, sounder := o }.conditions =
      s.conditions := rfl

/-! ### Discards, speeds and stops -/

/-- A discard for length counts once and leaves the port searching, in ANSWERING excepted (R145, R147, R149). -/
theorem State.lengthDiscard_cases (p : Port) :
    (∃ a, (s.port p).receiver = .answering a ∧ s.lengthDiscard p = s) ∨
    ∃ r, (r = .listening ∨ r = .serving []) ∧
      s.lengthDiscard p = s.setPort p { s.port p with
        receiver := r
        counters := { (s.port p).counters with length := sat16 ((s.port p).counters.length + 1) } } := by
  cases h : (s.port p).receiver with
  | answering a => exact .inl ⟨a, rfl, by simp [State.lengthDiscard, h]⟩
  | serving f =>
    exact .inr ⟨_, .inr rfl, by simp [State.lengthDiscard, h, State.setReceiver, State.countPort, State.port_setPort]⟩
  | listening =>
    exact .inr ⟨_, .inl rfl, by simp [State.lengthDiscard, h, State.setReceiver, State.countPort, State.port_setPort]⟩
  | collecting f =>
    exact .inr ⟨_, .inl rfl, by simp [State.lengthDiscard, h, State.setReceiver, State.countPort, State.port_setPort]⟩

theorem State.overrunDiscard_eq (p : Port) :
    s.overrunDiscard p = s.setPort p { s.port p with
      receiver := .serving []
      counters := { (s.port p).counters with overrun := sat16 ((s.port p).counters.overrun + 1) } } := by
  simp [State.overrunDiscard, State.setReceiver, State.countPort, State.port_setPort]

/-- A speed touches its own port alone (R142). -/
theorem State.setSpeed_eq (p : Port) (v : Speed) :
    ∃ x, s.setSpeed p v = s.setPort p x ∧ x.speed = v ∧ x.counters = (s.port p).counters := by
  refine ⟨_, rfl, ?_, ?_⟩ <;> (split <;> [unfold PortRec.takeSpeed; skip]) <;> (try split) <;> rfl

/-- Stopping changes the phase, the store request, the store's check and the outputs (R165, R168, R170). -/
theorem State.abortStore_cases :
    s.abortStore = { s with storeOp := none } ∨
    s.abortStore = { s with storeOp := none, store := s.store.spoil } := by
  obtain ⟨op, h⟩ : ∃ op, s.storeOp = op := ⟨_, rfl⟩
  match op, h with
  | none, h => exact .inl (by simp only [State.abortStore, h]; conv_lhs => rw [show s = { s with storeOp := none } by rw [← h]])
  | some (.save _ _), h => exact .inr (by simp only [State.abortStore, h])
  | some .load, h => exact .inl (by simp only [State.abortStore, h])
  | some .factory, h => exact .inl (by simp only [State.abortStore, h])

theorem State.halt_stopped (ph : Phase) (h : ph ≠ .running) :
    (s.halt ph).phase = ph ∧ (s.halt ph).permitA = false ∧ (s.halt ph).permitB = false ∧
      (s.halt ph).sounder.playing = none := by
  refine ⟨rfl, ?_, ?_, ?_⟩ <;> simp [State.halt, State.settle, State.permitOn, Sounder.reselect, h]

/-! ### Delivery -/

/-- A delivery ages the sector's chain, and runs retirement there when a layer became released (R59). -/
theorem State.deliver_cases (k : SectorIx) (n : Nat) :
    let t := s.setSectorLive k { (s.sector k).live with
      chain := ((s.sector k).live.chain.map (Layer.mature n)).map (Layer.refresh s.active) }
    s.deliver k n = t ∨ s.deliver k n = t.retireSector k := by
  unfold State.deliver
  dsimp only
  split
  · exact .inr rfl
  · exact .inl rfl

/-! ### The credit of an outage -/

@[simp] theorem State.credit_zero : s.credit 0 = s := rfl

theorem State.credit_succ (n : Nat) :
    s.credit (n + 1) = (s.credit n).interval fun s _ => increment s.active s.active.fallback := rfl

/-- What is kept by each interval is kept by the credit of an outage. -/
theorem State.credit_induction {P : State → Prop} (step : ∀ s inc, P s → P (State.interval s inc)) (h : P s) (n : Nat) :
    P (s.credit n) := by
  induction n with
  | zero => exact h
  | succ n ih => rw [s.credit_succ]; exact step _ _ ih

end Sys2Proof.Machine
end

