-- ==== Sys2Proof/Tests/Slice0.lean ====
section
/-! SUPPORT. Tests from the manual's worked sequences and tables, ill-formed commands that WellFormed refuses, and for
every statement with hypotheses a concrete state and operands that meet them. Each test names its source. -/

namespace Sys2Proof.Tests

set_option Elab.async false

open Sys2Proof.Machine

/-! ### Small decks -/

/-- The state a command leaves. -/
def after (c : Instr) (s : State) : State :=
  match exec c s with
  | .next t => t
  | .fault _ => s
  | .refused _ => s

/-- The kind and payload of the answer a port is sending. -/
def said (t : State) (p : Port) : Option (AnswerKind × List Byte) :=
  match (t.port p).receiver with
  | .answering a => some (a.kind, a.payload)
  | .listening => none
  | .collecting _ => none
  | .serving _ => none

/-- What a port answers to a command. -/
def answer (c : Instr) (p : Port) (s : State) : Option (AnswerKind × List Byte) := said (after c s) p

/-- A defined jack in READY. -/
def readyJack (st : Station) (g : Fin 8) (k : SectorIx) (height rod : Nat) (last : Option Nat) : Jack :=
  ⟨st, g, k, { JackLive.default with state := .ready, height := height, rod := rod, lastSecond := last }⟩

/-- A sector with one unreleased layer of class 0. -/
def oneLayer (k : SectorIx) (slot : Slot) (hHard top : Nat) : Sector :=
  ⟨true, none, ⟨true, hHard, [⟨slot, k, hHard, top, 0, 0, 0, false, false⟩], 1, 0⟩⟩

/-- The deck of section 5.7 before second 5,000, its two ceilings made by one layer each. -/
def deck57 : State :=
  let s := { State.reset with
    mode := .rise, aliveA := some 5, aliveB := some 5, permitA := true, permitB := true
    freeList := (List.finRange 256).drop 2
    retained := { Retained.cleared with counter := 5000 } }
  (((((s.setSector 3 (oneLayer 3 0 123000 125500)).setSector 9 (oneLayer 9 1 129000 131500)).setJack 12
    (readyJack .A 1 3 132550 60000 none)).setJack 13 (readyJack .A 1 3 132600 50000 (some 4985))).setJack 44
    (readyJack .A 1 9 132550 40000 none)).setJack 40 (readyJack .B 0 9 132600 55000 (some 4990))

/-- The same deck in READY, with no station alive. -/
def deckReady : State :=
  { deck57 with mode := .ready, aliveA := none, aliveB := none, permitA := false, permitB := false }

/-- The deck at second 5,031: jack 44 stalled, jack 12 moved. -/
def deck5031 : State :=
  let s := { deck57 with retained := { deck57.retained with counter := 5031 } }
  (s.setLive 12 { (s.jack 12).live with height := 132746, rod := 59804, lastLength := 200, lastSecond := some 5000 }).setLive
    44 { (s.jack 44).live with state := .stalled, lastLength := 200, lastSecond := some 5000, stallCount := 1 }

/-- Jack 12 holds a grant of 200. -/
def deckGranted : State :=
  (deck57.setGrant 12 (some ⟨.A, 200, 5000, 5030, .rise⟩)).setLive 12
    { (deck57.jack 12).live with state := .granted, lastLength := 200, lastSecond := some 5000 }

/-! ### Chapter 8: fields, the check and the line -/

/-- R144's reference value. -/
theorem test_crc_reference : crc16 [0x31, 0x32, 0x33, 0x34, 0x35, 0x36, 0x37, 0x38, 0x39] = 0x29B1 := by decide +kernel

/-- R148: LAYER PLACED from port 1 is refused ROLE with detail 1 (section 8.9, step 4). -/
theorem test_layerPlaced_role :
    answer (.layerPlaced .stationA 3 [7, 8, 0]) .stationA deck57 = some (.refuse, [3, 0, 1]) := by decide +kernel

/-- R148: STROKE DEMAND with payload length 3 is refused LENGTH with detail 3 (section 8.9, step 5). -/
theorem test_strokeDemand_length :
    answer (.strokeDemand .stationA 0 [1, 0, 0]) .stationA deck57 = some (.refuse, [9, 0, 3]) := by decide +kernel

/-! ### Chapter 5 -/

/-- Section 5.7, second 5,000. -/
theorem test_strokeDemand_grants :
    answer (.strokeDemand .stationA 0 [1, 0]) .stationA deck57 =
      some (.accept, [2, 4, 13, 0, 0, 0x13, 0xA6, 12, 0, 200, 44, 0, 200]) := by decide +kernel

/-- Section 5.7, second 5,031. -/
theorem test_strokeDemand_stalled :
    answer (.strokeDemand .stationA 0 [1, 0]) .stationA deck5031 =
      some (.accept, [1, 3, 44, 0, 0, 0x13, 0xC5, 13, 0, 150]) := by decide +kernel

/-- Section 5.7, second 5,012: travel 196 against the grant of 200. -/
theorem test_strokeReport_done :
    let t := after (.strokeReport .stationA 0 [12, 0, 196]) deckGranted
    said t .stationA = some (.accept, [1, 12, 0, 2]) ∧ (t.jack 12).live.height = 132746 ∧ (t.jack 12).live.rod = 59804 ∧
      t.grant? 12 = none := by decide +kernel

/-- Section 5.7, second 5,040, first entry: travel 90 of a stalled jack against its last 200 is LATE and short. -/
theorem test_strokeReport_late :
    let t := after (.strokeReport .stationA 0 [44, 0, 90]) deck5031
    said t .stationA = some (.accept, [1, 44, 17, 2]) ∧ (t.jack 44).live.height = 132640 ∧
      (t.jack 44).live.shortCount = 1 := by decide +kernel

/-- R103: a cancel closes the grant, and its repeat finds none. -/
theorem test_strokeCancel :
    answer (.strokeCancel .stationA 0 [12, 12]) .stationA deckGranted = some (.accept, [2, 12, 0, 2, 12, 1, 2]) := by
  decide +kernel

/-- Section 5.7, second 5,030. -/
theorem test_grantExpiry :
    let t := after (.grantExpiry 12) { deckGranted with retained := { deckGranted.retained with counter := 5030 } }
    (t.jack 12).live.state = .stalled ∧ t.grant? 12 = none ∧ t.counters.expiries = 1 := by decide +kernel

/-- R105: a granted deck in RISE: no holds, contact closed, BUDGET 12, one grant listed. -/
theorem test_stationView :
    answer (.stationView .stationA 0 [0]) .stationA deckGranted =
      some (.accept, [2, 0, 1, 12, 1, 0, 2, 5, 0xC6, 0, 2, 1, 0, 0, 0, 0, 0, 1, 12, 0, 200, 0, 0, 0x13, 0xA6]) := by
  decide +kernel

/-! ### Chapter 1 (section 1.13) -/

/-- The deck of section 1.13 before its first step. -/
def deck113 : State := State.reset.setSector 3 ⟨true, some 2, ⟨true, 120000, [], 0, 0⟩⟩

/-- The same with jack 12 surveyed at 132,400 with 60,000 of rod. -/
def deck113Surveyed : State := deck113.setJack 12 (readyJack .A 1 3 132400 60000 none)

/-- The same with jack 12 excluded. -/
def deck113Excluded : State :=
  deck113Surveyed.setLive 12 { (deck113Surveyed.jack 12).live with state := .excluded, height := 133200 }

theorem test_jackDefine :
    let t := after (.jackDefine .console 12 [0, 1, 3]) deck113
    said t .console = some (.accept, [1]) ∧ t.mode = .survey := by decide +kernel

theorem test_jackUndefine :
    let t := after (.jackUndefine .console 12 [0, 0, 0]) deck113Surveyed
    said t .console = some (.accept, [0]) ∧ t.jack 12 = Jack.undefined := by decide +kernel

/-- Step 6: a jump of 800 is refused with the jump as detail. -/
theorem test_survey_jump :
    answer (.survey .console 12 [0, 2, 8, 0x50, 0]) .console deck113Surveyed = some (.refuse, [5, 3, 0x20]) := by
  decide +kernel

/-- Step 7: FORCE takes it. -/
theorem test_survey_force :
    answer (.survey .console 12 [0, 2, 8, 0x50, 1]) .console deck113Surveyed =
      some (.accept, [0, 2, 5, 0x30, 0, 2, 8, 0x50, 2]) := by decide +kernel

/-- Step 4: 60,000 and 60,000 reach the limit exactly. -/
theorem test_rodExtend :
    answer (.rodExtend .console 12 [0xEA, 0x60]) .console deck113Surveyed = some (.accept, [0, 1, 0xD4, 0xC0, 2]) := by
  decide +kernel

theorem test_jackSetExclude : answer (.jackSetExclude .console 12 []) .console deck113Surveyed = some (.accept, [7]) := by
  decide +kernel

theorem test_jackSetInclude : answer (.jackSetInclude .console 12 []) .console deck113Excluded = some (.accept, [2]) := by
  decide +kernel

/-- Step 9: CLEAR of an excluded jack is refused STATE with detail 7. -/
theorem test_jackSetClear : answer (.jackSetClear .console 12 []) .console deck113Excluded = some (.refuse, [10, 0, 7]) := by
  decide +kernel

/-- R14: the spread rank byte of jack 12 is 24, and its state READY. -/
theorem test_jackRead :
    (answer (.jackRead .feed 12 []) .feed deck113Surveyed).map (fun a => a.2.take 7) =
      some [1, 0, 1, 3, 24, 2, 8] := by decide +kernel

/-- The table of R3. -/
theorem test_spreadRank :
    [0, 1, 2, 3, 12, 13, 40, 48, 64, 95].map spreadRank = [0, 64, 32, 96, 24, 88, 10, 6, 1, 125] := by decide +kernel

theorem test_sectorDefine :
    let t := after (.sectorDefine .console 4 [0xFF]) deck113
    said t .console = some (.accept, [0]) ∧ t.mode = .survey := by decide +kernel

/-- R17: a sector that a jack names is refused STATE with detail 1. -/
theorem test_sectorUndefine : answer (.sectorUndefine .console 3 [0]) .console deck113Surveyed = some (.refuse, [10, 0, 1]) := by
  decide +kernel

/-- Section 11.2, step 6: base 100,100. -/
theorem test_sectorBase :
    answer (.sectorBase .console 3 [0, 1, 0x87, 4]) .console deck113 = some (.accept, [0, 1, 0x87, 4]) := by decide +kernel

/-! ### Chapter 2 (section 2.9) -/

/-- A layer of class 0. -/
def layer (slot : Slot) (k : SectorIx) (base top maturity age : Nat) : Layer :=
  ⟨slot, k, base, top, 0, maturity, age, decide (72000 ≤ maturity), false⟩

/-- The deck of section 2.9 after its step 6. -/
def deck29 : State :=
  let s := { State.reset with freeList := (0 :: (List.finRange 256).drop 3) }
  (((s.setSector 3 ⟨true, none, ⟨true, 121800, [layer 2 3 121800 123500 0 0, layer 1 3 123500 125000 0 0], 3, 1⟩⟩).setSector 4
    ⟨true, none, ⟨true, 118000, [], 1, 0⟩⟩).setJack 0 (readyJack .A 0 3 132800 60000 none)).setJack 1
    (readyJack .B 0 4 125500 60000 none)

/-- Step 7. -/
theorem test_feedAdvice :
    answer (.feedAdvice .feed 0 []) .feed deck29 = some (.accept, [4, 0x0F, 0xA0, 1, 2, 0, 254, 0]) := by decide +kernel

/-- Step 8: slot 0, 118,000 to 122,000, chain 1, free list 253, no flag. -/
theorem test_layerPlaced :
    answer (.layerPlaced .feed 4 [0x0F, 0xA0, 0]) .feed deck29 =
      some (.accept, [0, 0, 1, 0xCC, 0xF0, 0, 1, 0xDC, 0x90, 1, 253, 0]) := by decide +kernel

/-- R33: the top layer of sector 3, slot 1, goes back on top of the free list. -/
theorem test_layerWithdraw :
    let t := after (.layerWithdraw .feed 3 []) deck29
    said t .feed = some (.accept, [1, 0, 1, 0xE2, 0x6C, 0, 1, 0xE8, 0x48, 1, 0, 255]) ∧ t.freeList.head? = some 1 := by
  decide +kernel

/-- Step 6 at its second survey: slot 0 lies exactly at D_low − HF and retires, slot 2 does not. -/
theorem test_retirement :
    let s := deck29.setSectorLive 3 ⟨true, 120000,
      [layer 0 3 120000 121800 72000 9, layer 2 3 121800 123500 0 0, layer 1 3 123500 125000 0 0], 3, 0⟩
    let t := { s with freeList := (List.finRange 256).drop 3 }.retireSector 3
    (t.sector 3).live.hHard = 121800 ∧ (t.sector 3).live.chain.map Layer.slot = [2, 1] ∧
      t.freeList.take 2 = [0, 3] ∧ (t.sector 3).fill = 125000 := by decide +kernel

/-- R42: page 0 of sector 3's chain: two layers from base 121,800. -/
theorem test_layerRead :
    (answer (.layerRead .console 3 [0]) .console deck29).map (fun a => a.2.take 13) =
      some [2, 0, 2, 0, 1, 0xDB, 0xC8, 2, 6, 0xA4, 0, 0, 0] := by decide +kernel

/-- R19: sector 4 is defined, without probe, based, fill-starved, with one level-bearing jack. -/
theorem test_sectorRead :
    (answer (.sectorRead .stationB 4 []) .stationB deck29).map (fun a => a.2.take 11) =
      some [1, 0xFF, 1, 8, 0, 1, 1, 0, 1, 0xCC, 0xF0] := by decide +kernel

/-! ### Chapter 3 -/

/-- The table of R52. -/
theorem test_average :
    ([[38, 41, 44, 40], [-35, -36, -36, -36], [2, -1, 0, 0], [-2, 1, 0, 0], [-300, -300, -300, -299]].map fun w =>
      ({ Probe.fresh with state := .good, window := #v[w.getD 0 0, w.getD 1 0, w.getD 2 0, w.getD 3 0] } : Probe).average)
      = [40, -36, 0, -1, -300] := by decide +kernel

/-- The table of R58. -/
theorem test_increment :
    ([(40, -100), (-36, -100), (-100, -100), (-120, -100), (800, -100), (800, -150)].map fun x : Int × Int =>
      increment (Plan.factory.set 11 x.2) x.1) = [140, 64, 0, 0, 900, 900] := by decide +kernel

/-- Section 3.8.5, sample 7: the third invalid sample takes a GOOD probe to FAULT. -/
theorem test_probeSample_fault :
    let p : Probe := ⟨.good, #v[42, 43, 44, 40], 2, some (-999), false, 2, 0, 0⟩
    let q := (after (.probeSampleExpiry (Vector.replicate 12 (-999)) 3000)
      { State.reset with probes := Vector.replicate 12 p }).probe 2
    q = ⟨.fault, #v[42, 43, 44, 40], 2, some (-999), false, 3, 0, 1⟩ := by decide +kernel

/-- Section 3.8.5, sample 14: the fourth valid sample of the run. -/
theorem test_probeSample_recovered :
    let p : Probe := ⟨.fault, #v[47, 48, 47, 47], 2, some 48, true, 0, 3, 1⟩
    let q := (after (.probeSampleExpiry (Vector.replicate 12 48) 3000)
      { State.reset with probes := Vector.replicate 12 p }).probe 2
    q = ⟨.good, #v[47, 48, 48, 47], 3, some 48, true, 0, 0, 1⟩ ∧ q.average = 47 := by decide +kernel

/-- R54: a NEW probe that no sector names, with its last sample absent. -/
theorem test_probeRead :
    answer (.probeRead .console 11 []) .console State.reset =
      some (.accept, [0, 0x80, 0, 0, 0, 0, 0, 0, 0, 0, 0, 0, 0x80, 0, 0, 0, 0, 0, 0, 0]) := by decide +kernel

/-- R56 to R59: FALLBACK 20 over DATUM −100 gives 120, which just releases the layer. -/
theorem test_maturityInterval :
    let s := deck29.setSectorLive 4 ⟨true, 118000, [layer 0 4 118000 122000 71880 9], 1, 0⟩
    ((after .maturityIntervalExpiry s).sector 4).live.chain.map (fun l => (l.maturity, l.age, l.released)) =
      [(72000, 10, true)] := by decide +kernel

/-! ### Chapters 6 and 7 -/

/-- R109: CRAWL records h_min, 132,550. -/
theorem test_modeSet_crawl :
    answer (.modeSet .console 0 [2]) .console deck57 = some (.accept, [3, 0, 2, 5, 0xC6, 0]) := by decide +kernel

/-- Section 6.3.1, last row: the stroke that raises h_min to 252,970 places CRAWL_LIMIT. -/
theorem test_crawlLimit :
    let s := ({ State.reset with mode := .crawl, crawlEntry := some 250000 }.setJack 40
      (readyJack .A 0 0 252950 60000 none)).setJack 7 (readyJack .A 0 0 252970 60000 none)
    let s := (s.setGrant 40 (some ⟨.A, 50, 0, 30, .crawl⟩)).setLive 40 { (s.jack 40).live with state := .granted }
    ((after (.strokeReport .stationA 0 [40, 0, 50]) s).holds).map Hold.reason = [.crawlLimit] := by decide +kernel

/-- Section 6.5.1, second 8,000: STATION_B, PUMP, position 0, one entry. -/
theorem test_holdPlace :
    let t := after (.holdPlace .stationB 0 [2, 0, 0]) deck57
    said t .stationB = some (.accept, [0, 0, 1, 1]) ∧ t.permitA = false ∧ t.permitB = false := by decide +kernel

/-- Section 6.5.1, second 8,030: port 1 may not release STATION_B's entry. -/
theorem test_holdRelease :
    answer (.holdRelease .stationA 0 [2, 2, 0, 0]) .stationA { deck57 with holds := [⟨.stationB, .pump, .none, 8000⟩] } =
      some (.refuse, [10, 0, 2]) := by decide +kernel

/-- R122: one entry, placed at second 8,000. -/
theorem test_holdList :
    answer (.holdList .feed 0 [0]) .feed { deck57 with holds := [⟨.stationB, .pump, .none, 8000⟩] } =
      some (.accept, [1, 0, 1, 2, 2, 0, 0xFF, 0, 0, 0x1F, 0x40]) := by decide +kernel

/-- R125: an undecided filter that finds the line low places the LINE entry, and R127 opens both contacts. -/
theorem test_holdFilter :
    let t := after .holdFilterExpiry { deck57 with holdLow := true }
    t.holds.map Hold.reason = [.line] ∧ t.holdFilter = .asserted ∧ t.permitA = false := by decide +kernel

theorem test_holdLineChange :
    (after (.holdLineChange true) { deck57 with holdTimer := false }).holdTimer = true := by decide +kernel

/-- Section 6.8.1, second 7,000. -/
theorem test_aliveTimer :
    let t := after (.aliveTimerExpiry .stationB) deck57
    t.permitA = true ∧ t.permitB = false := by decide +kernel

/-- Section 7.5, step 1: staged 45, active 30, one difference. -/
theorem test_planStage :
    answer (.planStage .console 5 [0, 0, 0, 45]) .console State.reset =
      some (.accept, [0, 0, 0, 45, 0, 0, 0, 30, 1]) := by decide +kernel

/-- Section 7.5, step 4: the factory plan fails check 1. -/
theorem test_planApply_refused :
    let t := after (.planApply .console 0 []) State.reset
    said t .console = some (.refuse, [10, 0, 1]) ∧ t.planRejected = true := by decide +kernel

/-- Section 7.5, step 7: TOL 250 passes at equality; serial 7 becomes 8. -/
theorem test_planApply :
    answer (.planApply .console 0 []) .console { deck57 with
      staged := ((Plan.factory.set 0 250).set 4 45).set 5 6, planSerial := 7, planRejected := true } =
      some (.accept, [0, 8, 3, 0]) := by decide +kernel

/-- Section 7.5, step 3: staged check 1. -/
theorem test_planReadState :
    answer (.planReadState .feed []) .feed { State.reset with planSerial := 7, staged := (Plan.factory.set 4 45).set 5 6 } =
      some (.accept, [0, 7, 0, 2, 1]) := by decide +kernel

/-- Section 7.1: DATUM −100, range −150 to 0. -/
theorem test_planRead :
    answer (.planRead .console 12 []) .console State.reset = some (.accept,
      [0xFF, 0xFF, 0xFF, 0x9C, 0xFF, 0xFF, 0xFF, 0x9C, 0xFF, 0xFF, 0xFF, 0x6A, 0, 0, 0, 0, 0]) := by decide +kernel

/-! ### Chapters 8 to 10 -/

/-- Section 9.3.1, second 9,010. -/
theorem test_silence :
    answer (.silence .console 0 []) .console { deck57 with holds := [⟨.stationB, .pump, .none, 9000⟩] } =
      some (.accept, [1, 1, 0]) := by decide +kernel

/-- R160 at 5,000: RISE, h_min 132,550, h_max 132,600, spread 50, lowest D_max 134,000 in sector 3; of the flags, RETAIN_LOST
alone, from the first start-up. -/
theorem test_deckSummary :
    answer (.deckSummary .console 0 []) .console deck57 = some (.accept,
      [2, 0, 1, 0, 0, 2, 5, 0xC6, 0, 2, 5, 0xF8, 0, 50, 0, 2, 0x0B, 0x70, 3, 0, 0, 0, 0, 0, 0x13, 0x88, 0, 0]) := by
  decide +kernel

/-- R162 with R154: the request itself is counted, and cleared with the rest. -/
theorem test_countersReadClear :
    let t := after (.countersReadClear .console 0 []) State.reset
    (said t .console).map (fun a => a.2.drop 36) = some [0, 1, 0, 0, 0, 0, 0, 0, 0, 0, 0, 0] ∧
      (t.port .console).counters = PortCounters.zero := by decide +kernel

theorem test_counters_range : answer (.counters .console 0 [3]) .console State.reset = some (.refuse, [5, 0, 1]) := by
  decide +kernel

/-- R163: both memories found bad, twelve NEW probes, a welded contact and an open sounder load. -/
theorem test_diagnose :
    answer (.diagnose .console 0 [] ⟨false, false, true, false, .openCircuit⟩) .console State.reset =
      some (.accept, [1, 1] ++ List.replicate 12 0 ++ [0, 1, 0, 0, 5, 1, 0]) := by decide +kernel

/-- R164: a failed retained check runs the sequence once the answer has left. -/
theorem test_diagnose_retained :
    (after (.answerSent .console)
      (after (.diagnose .console 0 [] ⟨false, true, false, false, .present⟩) State.reset)).phase = .starting true := by
  decide +kernel

/-- R142: the answer goes out at the old speed. -/
theorem test_portSet :
    let t := after (.portSet .console 4 [4]) State.reset
    (t.port .console).lineSpeed = .b57600 ∧
      ((after (.answerSent .console) t).port .console).lineSpeed = .b115200 := by decide +kernel

/-- R168: the save ends with the serial, four jacks and two sectors. -/
theorem test_configSave :
    let t := after (.configSave .console 0 []) deck57
    said t .console = none ∧ answer (.configSaveEnd true) .console t = some (.accept, [0, 0, 4, 2]) := by decide +kernel

/-- R169: a load with a live grant is refused STATE with detail 1. -/
theorem test_configLoad : answer (.configLoad .console 0 []) .console { deckGranted with mode := .ready } =
    some (.refuse, [10, 0, 1]) := by decide +kernel

/-- R169: the factory image defines nothing, and both chains return to the free list, the higher sector's on top (R44). -/
theorem test_configFactory :
    let t := after .configFactoryEnd (after (.configFactory .console 0 []) deckReady)
    said t .console = some (.accept, [0, 1, 1, 0, 0]) ∧ t.freeList.take 3 = [1, 0, 2] := by decide +kernel

/-- R173: a deck with definitions enters SURVEY. -/
theorem test_clearDeck : answer (.clearDeck .console 0 []) .console deckReady = some (.accept, [0]) := by decide +kernel

/-- R170: the module stops once the answer has left. -/
theorem test_restart :
    let t := after (.restart .console 0 []) deck57
    t.permitA = true ∧ (after (.answerSent .console) t).permitA = false := by decide +kernel

/-- The module about to start for the first time. -/
def deckFirst : State :=
  { State.reset with phase := .starting false, retainLost := false, retained := ({ Retained.cleared with counter := 9 } : Retained).spoil }

/-- A state with the two checks, which no evaluation shows, left out. -/
def unchecked (s : State) : State := { s with retained := { s.retained with check := 0 }, store := { s.store with check := 0 } }

/-- Section 11.2: the first start-up. -/
theorem test_startUp :
    ∃ t, exec (.startUpSequence false true 3000) deckFirst = .next t ∧ unchecked t = unchecked State.reset ∧
      t.retained.checkGood = true ∧ t.store = State.reset.store := by
  have h : deckFirst.storeMatches true = true := Store.holding_checkGood _
  have e : deckFirst.startUp false false true 3000 = deckFirst.startUpFound true false 3000 := by
    unfold State.startUp
    rw [h]
    simp only [Store.found_true]
    congr 1
  refine ⟨(deckFirst.startUp false false true 3000).settle, rfl, ?_⟩
  rw [e]
  exact ⟨by decide +kernel, State.rewrite_checkGood _, rfl⟩

/-- R166: the counter stops at its top. -/
theorem test_deckClock :
    (after .deckClockAdvance { State.reset with retained := { Retained.cleared with counter := 4294967294 } }).clock =
      4294967294 := by decide +kernel

/-- R165: the check covers the counter and the run mark, and follows them. -/
theorem test_retained_check :
    (after .deckClockAdvance deck57.rewrite).retained.checkGood = true ∧
      (after .runMarkBreak { deck57.rewrite with phase := .off }).retained.checkGood = true :=
  ⟨(Retained.recheck_checkGood _ _).trans deck57.rewrite_checkGood,
    (Retained.recheck_checkGood _ _).trans deck57.rewrite_checkGood⟩

/-- R165, R170: power off, the mark breaks, power on. -/
theorem test_power :
    let t := after .runMarkBreak (after .powerFail deck57)
    t.permitA = false ∧ t.retained.runMark = false ∧ (after .powerOn t).phase = .starting false := by decide +kernel

theorem test_reset :
    (after .resetLineHigh (after .resetLineLow deck57)).phase = .starting false := by decide +kernel

/-- Section 8.9, step 2: the gap timer counts in GAP alone. -/
theorem test_gapTimer :
    ((after (.gapTimerExpiry .stationA) (deck57.setReceiver .stationA (.collecting [0xC5, 1, 2, 3]))).port .stationA).counters =
      ⟨0, 0, 1, 0, 0, 0⟩ := by decide +kernel

/-- Section 8.9, step 6: a payload length byte of 60. -/
theorem test_byteReceived_length :
    ((after (.byteReceived .stationA 60 ⟨true, true, false, false, .present⟩)
      (deck57.setReceiver .stationA (.collecting [0xC5, 0x20, 0, 0]))).port .stationA) =
      { PortRec.fresh .b57600 with counters := ⟨0, 0, 0, 1, 0, 0⟩ } := by decide +kernel

/-- Section 8.9, step 3: a wrong check is refused CHECK and starts no alive timer. -/
theorem test_frameCheckFail :
    let t := after (.frameCheckFail .stationA 0x23 0 [0]) { deck57 with aliveA := none }
    (said t .stationA).map (fun a => (a.1, a.2.head?)) = some (.refuse, some 1) ∧ t.aliveA = none := by decide +kernel

/-- R148: an unknown code is refused UNKNOWN with the code. -/
theorem test_unknownRequestCode :
    answer (.unknownRequestCode .feed 0x70 0 []) .feed State.reset = some (.refuse, [2, 0, 0x70]) := by decide +kernel

theorem test_frameDiscards :
    ((after (.frameOverrunDiscard .console) (State.reset.setReceiver .console (.serving []))).port .console).counters.overrun = 1 ∧
      ((after (.frameLengthDiscard .feed) State.reset).port .feed).counters.length = 1 := by decide +kernel

/-- R155: vendor, part, and the port number; the revision byte is the part's own. -/
theorem test_identity :
    (answer (.identity .feed 0 []) .feed State.reset).map (fun a => a.2.take 4 ++ a.2.drop 5) =
      some [0x0D, 0x5A, 0x09, 0x60, 0, 3, 3] := by rfl

/-- R157: HELD's second tone, and the end of its cycle. -/
theorem test_sounder :
    (Sounder.mk (some .held) 500 Conditions.empty).tone = some 207 ∧
      (Sounder.mk (some .held) 999 Conditions.empty).advance.tone = some 155 := by decide +kernel

/-! ### Ill-formed commands, one for each check of WellFormed -/

theorem test_illformed_payload : (Instr.deckSummary .feed 0 (List.replicate 57 0)).wellFormed = false := by decide

theorem test_illformed_tail : (Instr.jackSetClear .console 0 (List.replicate 56 0)).wellFormed = false := by decide

theorem test_illformed_sample :
    (Instr.probeSampleExpiry ((Vector.replicate 12 0).set 11 2000) 3000).wellFormed = false := by decide

theorem test_illformed_planRead : (Instr.planRead .feed 0 []).wellFormed = false := by decide

theorem test_illformed_counters : (Instr.counters .console 0 [0]).wellFormed = false := by decide

theorem test_illformed_aliveTimer : (Instr.aliveTimerExpiry .feed).wellFormed = false := by decide

theorem test_illformed_unknownCode : (Instr.unknownRequestCode .feed 0x10 0 []).wellFormed = false := by decide

theorem test_wellformed :
    (Instr.deckSummary .feed 0 (List.replicate 56 0)).wellFormed = true ∧
      (Instr.jackSetClear .console 0 (List.replicate 55 0)).wellFormed = true ∧
      (Instr.probeSampleExpiry ((Vector.replicate 12 (-999)).set 11 1999) 0).wellFormed = true ∧
      (Instr.unknownRequestCode .feed 0x17 0 []).wellFormed = true := by decide

/-! ### Witnesses: states and operands that meet the hypotheses of the statements -/

/-- A deck whose live data retained memory mirrors, with a demand waiting. -/
def deckWaiting : State := { deck57.commit with pending := [.strokeDemand .stationA 0 [1, 0]] }

theorem witness_StepRunsFrontCommand : deckWaiting.pending = .strokeDemand .stationA 0 [1, 0] :: [] := rfl

theorem witness_IdleStepPlaysTheSounder :
    State.reset.pending = [] ∧ State.reset.sounder.playing = none ∧
      ({ State.reset with sounder := ⟨some .held, 999, Conditions.empty⟩ }).sounder.playing = some .held := by decide +kernel

theorem witness_FirstStartUpGivesReset :
    deckFirst.phase = .starting false ∧ deckFirst.store = Store.holding Configuration.factory ∧
      deckFirst.retained.checkGood = false ∧ 2900 ≤ 2900 :=
  ⟨rfl, rfl, Retained.spoil_checkGood _, Nat.le_refl _⟩

theorem witness_FieldsAndCheckAreBigEndian :
    65535 < 65536 ∧ 4294967295 < 4294967296 ∧ (-2147483648 : Int) ≤ -2147483648 ∧ (2147483647 : Int) < 2147483648 ∧
      (-32768 : Int) ≤ -32768 ∧ (-1 : Int) < 0 := by decide

/-- What a DIAGNOSE that finds nothing wrong sees. -/
def sound : Findings := ⟨true, true, false, false, .present⟩

theorem witness_BytesMakeTheFrame :
    frame? sound (.layerPlaced .stationA 3 (List.replicate 56 0xC5)) =
        some ⟨.stationA, 0x30, 3, List.replicate 56 0xC5⟩ ∧
      (Instr.layerPlaced .stationA 3 (List.replicate 56 0xC5)).wellFormed = true ∧ deck57.phase = .running ∧
      (deck57.port .stationA).receiver = .listening := by decide +kernel

/-- The longest frame with one check bit wrong. -/
theorem witness_BytesMakeTheFrame_badCheck :
    let body := [0xC5, 0x30] ++ be2 (3 : Item).toNat ++ be1 56 ++ List.replicate 56 (0 : Byte)
    let check := (crcBytes body).map fun b => b ^^^ 1
    (List.replicate 56 (0 : Byte)).length ≤ 56 ∧ check.length = 2 ∧ check ≠ crcBytes body := by decide +kernel

/-- An item that names an index. -/
def item (n : Nat) : Item := BitVec.ofNat 16 n

/-- A port in COLLECTING. -/
def collecting (p : Port) (s : State) : State := s.setReceiver p (.collecting [0xC5, 1])

theorem witness_FramesAreTestedBeforeService :
    (Request.ofCode? 0x17 = none ∧ (List.replicate 56 (0 : Byte)).length ≤ 56 ∧ deck57.Hears .console ∧
        (collecting .feed deck57).Hears .feed) ∧
      (frame? sound (.layerPlaced .stationA 3 []) = some ⟨.stationA, 0x30, 3, []⟩ ∧
        (Instr.layerPlaced .stationA 3 []).wellFormed = true ∧ Request.ofCode? 0x30 = some .layerPlaced ∧
        Request.layerPlaced.allowed .stationA = false) ∧
      (frame? sound (.strokeDemand .stationA 0 [1, 0, 0]) = some ⟨.stationA, 0x20, 0, [1, 0, 0]⟩ ∧
        (Instr.strokeDemand .stationA 0 [1, 0, 0]).wellFormed = true ∧ Request.ofCode? 0x20 = some .strokeDemand ∧
        Request.strokeDemand.allowed .stationA = true ∧ Request.strokeDemand.lengthOk 3 = false) ∧
      (deck57.phase = .running ∧ (deck57.port .console).receiver = .listening ∧ (4 : Byte) ≠ 3 ∧
        (∃ j : JackIx, (item 12).toNat = j.val ∧ (deck57.jack j).live.state ≠ .undefined) ∧
        (¬ ∃ j : JackIx, (item 96).toNat = j.val ∧ (deck57.jack j).live.state ≠ .undefined) ∧ (item 95).toNat < 96 ∧
        ¬ (item 24).toNat < 24 ∧ ([0, 0, 0] : List Byte).length = 3) := by decide +kernel

theorem witness_BadChecksAreRefused :
    (List.replicate 56 (0 : Byte)).length ≤ 56 ∧ (collecting .stationB deck57).Hears .stationB ∧
      (let s := deck57.setReceiver .stationB (.answering ⟨.accept, 1, []⟩)
      s.phase = .running ∧ (s.port .stationB).receiver = .answering ⟨.accept, 1, []⟩) ∧
      (let s := deck57.setReceiver .console (.serving [0xC5])
      s.phase = .running ∧ (s.port .console).receiver = .serving [0xC5]) := by decide +kernel

theorem witness_DiscardsAreCounted :
    let f : Frame := ⟨.console, 0x58, 0, []⟩
    let answering := deck57.setReceiver .console (.answering ⟨.accept, 0x58, []⟩)
    let serving := deck57.setReceiver .console (.serving [0xC5, 0x58])
    (frame? sound (.planApply .console 0 []) = some f ∧ (Instr.planApply .console 0 []).wellFormed = true ∧
        answering.phase = .running ∧ (answering.port f.port).receiver = .answering ⟨.accept, 0x58, []⟩ ∧
        (serving.port f.port).receiver = .serving ([0xC5] ++ [0x58])) ∧
      (deck57.phase = .running ∧ ((collecting .feed deck57).port .feed).receiver = .collecting [0xC5, 1] ∧
        (serving.port .console).receiver = .serving (0xC5 :: [0x58]) ∧ (deck57.port .feed).receiver.open = true) := by
  decide +kernel

theorem witness_BytesAreGathered :
    deck57.phase = .running ∧ (deck57.port .feed).receiver = .listening ∧ (0x7E : Byte) ≠ 0xC5 ∧
      ((collecting .feed deck57).port .feed).receiver = .collecting [0xC5, 1] ∧ [(0xC5 : Byte), 1, 2].length < 4 ∧
      (let partly : List Byte := [0xC5, 1, 0, 0, 56]
      4 < partly.length ∧ (partly.getD 4 0).toNat ≤ 56 ∧ partly.length + 1 < 7 + (partly.getD 4 0).toNat) ∧
      ([(0xC5 : Byte), 1, 0, 0].length = 4 ∧ (56 : Byte).toNat ≤ 56) ∧
      ((deck57.setReceiver .feed (.answering ⟨.accept, 1, []⟩)).port .feed).receiver = .answering ⟨.accept, 1, []⟩ ∧
      56 < (57 : Byte).toNat ∧ ((deck57.setReceiver .console (.serving [])).port .console).receiver = .serving [] ∧
      (let partly : List Byte := [0xC5, 1, 0, 0, 0, 0x12]
      ((deck57.setReceiver .console (.serving partly)).port .console).receiver = .serving partly ∧ partly ≠ [] ∧
        4 < partly.length ∧ (partly.getD 4 0).toNat ≤ 56 ∧ partly.length + 1 = 7 + (partly.getD 4 0).toNat) := by
  decide +kernel

/-- A DECK SUMMARY frame whose last check byte is one bit off. -/
theorem witness_BytesAreGathered_badCheck :
    let body : List Byte := [0xC5, 0x10, 0, 0, 0]
    let partly := body ++ (crcBytes body).take 1
    let frame := partly ++ [(crcBytes body).getD 1 0 ^^^ 1]
    ((deck57.setReceiver .feed (.collecting partly)).port .feed).receiver = .collecting partly ∧ 4 < partly.length ∧
      (partly.getD 4 0).toNat ≤ 56 ∧ frame.length = 7 + (partly.getD 4 0).toNat ∧
      frame.drop (frame.length - 2) ≠ be2 (crc16 (frame.take (frame.length - 2))).toNat := by decide +kernel

theorem witness_AnswerSentReopensThePort :
    let s := after (.restart .console 0 []) deck57
    s.phase = .running ∧ (s.port .console).receiver = .answering ⟨.accept, 0x5E, []⟩ := by decide +kernel

theorem witness_JackReadAnswersTheRecord :
    deck57.Hears .feed ∧ (item 95).toNat = (95 : JackIx).val ∧ 96 ≤ (item 96).toNat := by decide +kernel

theorem witness_SectorAndLayerReadsAnswer :
    deck57.Hears .feed ∧ (item 23).toNat = (23 : SectorIx).val ∧ (3 : Byte).toNat ≤ 3 ∧ 24 ≤ (item 24).toNat ∧
      3 < (4 : Byte).toNat := by decide +kernel

theorem witness_ProbeAndPlanReadsAnswer :
    deck57.Hears .feed ∧ (item 11).toNat = (11 : ProbeIx).val ∧ (item 25).toNat = (24 : Param).val + 1 ∧
      12 ≤ (item 12).toNat ∧ 25 < (item 26).toNat := by decide +kernel

theorem witness_SummaryIdentityListAndCountersAnswer :
    deck57.Hears .console ∧ (2 : Byte).toNat ≤ 2 := by decide +kernel

theorem witness_StationViewAnswers :
    Port.stationB.station? = some .B ∧ deck57.Hears .stationB ∧ (9 : Byte).toNat ≤ 9 := by decide +kernel

/-- No candidate on the empty deck; two in section 2.9, of which sector 4 is fill-starved and alone left. -/
theorem witness_FeedAdviceNamesTheBestSector :
    (State.reset.Hears .feed ∧ State.reset.feedCandidates = []) ∧
      (deck29.considered 3 = true ∧ (deck29.dLow 3).isSome = true ∧ deck29.considered 5 = false) ∧
      (deck29.Hears .feed ∧ (List.finRange 24).filter (fun k =>
        !deck29.freeList.isEmpty && deck29.considered k && decide (200 ≤ deck29.feedRoom k) &&
          decide ((deck29.sector k).live.chain.length < 16)) = [3, 4] ∧
        [(3 : SectorIx), 4].any deck29.fillStarved = true ∧ [(3 : SectorIx), 4].filter deck29.fillStarved = [4]) := by
  decide +kernel

theorem witness_JackDefineWritesTheRecord :
    deck113.Hears .console ∧ (item 12).toNat = (12 : JackIx).val ∧ deck113.mode = .ready ∧
      (deck113.jack 12).live.state ≠ .granted ∧ (1 : Byte).toNat = (match Station.B with | .A => 0 | .B => 1) ∧
      (7 : Byte).toNat = (7 : Fin 8).val ∧ (3 : Byte).toNat = (3 : SectorIx).val ∧ (deck113.sector 3).defined = true ∧
      [(0 : Byte), 0, 0].length = 3 := by decide +kernel

theorem witness_SurveySetsTheHeight :
    let s := deck113Surveyed
    let fresh := s.setLive 12 JackLive.fresh
    (s.Hears .console ∧ (item 12).toNat = (12 : JackIx).val ∧ (s.jack 12).live.state ≠ .undefined ∧
        (s.jack 12).live.state ≠ .granted ∧ u32At [0, 2, 7, 0x24, 0] 0 = 132900 ∧
        ((132900 : Int) - (s.jack 12).live.height).natAbs ≤ s.active.survlim) ∧
      (u32At [0, 0x1E, 0x84, 0x80, 1] 0 ≤ 2000000 ∧ u8At [0, 0x1E, 0x84, 0x80, 1] 4 = 1) ∧
      (fresh.jack 12).live.state = .unsurveyed ∧ fresh.Hears .console := by decide +kernel

theorem witness_RodExtendAddsRod :
    let s := deck113Surveyed
    s.Hears .console ∧ ([0, 0] : List Byte).length = 2 ∧
      (∀ j : JackIx, (item 96).toNat = j.val → (s.jack j).live.state = .undefined) ∧
      (item 12).toNat = (12 : JackIx).val ∧ (s.jack 12).live.state ≠ .undefined ∧ u16At [0, 0] 0 < 1 ∧
      60000 < u16At [0xEA, 0x61] 0 ∧ 1 ≤ u16At [0, 1] 0 ∧ u16At [0xEA, 0x60] 0 ≤ 60000 := by decide +kernel

theorem witness_JackSetActs :
    deck113Surveyed.Hears .console ∧ (item 12).toNat = (12 : JackIx).val ∧ (deck113Surveyed.jack 12).live.state = .ready ∧
      deck113Excluded.Hears .console ∧ (deck113Excluded.jack 12).live.state = .excluded := by decide +kernel

theorem witness_GrantedJacksAreBusy :
    let s := { deckGranted with mode := .ready }
    s.Hears .console ∧ (item 12).toNat = (12 : JackIx).val ∧ (s.jack 12).live.state = .granted ∧
      u32At [0, 0x1E, 0x84, 0x80, 1] 0 ≤ 2000000 ∧ u8At [0, 0x1E, 0x84, 0x80, 1] 4 ≤ 1 ∧ s.mode = .ready ∧
      (1 : Byte).toNat < 2 ∧ (7 : Byte).toNat < 8 ∧ (23 : Byte).toNat < 24 := by decide +kernel

theorem witness_SectorRequestsWriteTheRecord :
    deck113.Hears .console ∧ (item 3).toNat = (3 : SectorIx).val ∧ deck113.mode = .ready ∧
      (11 : Byte).toNat = (11 : ProbeIx).val ∧
      (∀ j : JackIx, (deck113.jack j).live.state ≠ .undefined → (deck113.jack j).sector ≠ 3) ∧
      (deck113.sector 3).live.chain = [] ∧ (deck113.sector 3).defined = true ∧
      u32At [0, 0x1E, 0x84, 0x80] 0 ≤ 2000000 := by decide +kernel

theorem witness_LayerPlacedAppendsALayer :
    deck29.Hears .feed ∧ (item 4).toNat = (4 : SectorIx).val ∧ (deck29.sector 4).defined = true ∧
      (deck29.sector 4).live.based = true ∧ 200 ≤ (0 : Byte).toNat * 256 + (200 : Byte).toNat ∧
      (0x0F : Byte).toNat * 256 + (0xA0 : Byte).toNat ≤ 4000 ∧ (3 : Byte).toNat = (3 : Fin 4).val ∧
      (deck29.sector 4).fill + 4000 ≤ 2000000 ∧ (deck29.sector 4).live.chain.length < 16 ∧
      deck29.freeList = 0 :: (List.finRange 256).drop 3 := by decide +kernel

theorem witness_LayerWithdrawRemovesTheTop :
    let l := layer 1 3 123500 125000 0 9
    let s := deck29.setSectorLive 3 { (deck29.sector 3).live with chain := [layer 2 3 121800 123500 0 9] ++ [l] }
    s.Hears .feed ∧ (item 3).toNat = (3 : SectorIx).val ∧ (s.sector 3).defined = true ∧
      (s.sector 3).live.chain = [layer 2 3 121800 123500 0 9] ++ [l] ∧ l.released = false ∧ l.age < 10 := by decide +kernel

theorem witness_RetirementRunsFromTheBottom :
    deck29.dLow 0 = none ∧ (deck29.sector 3).defined = true ∧ (deck29.sector 3).live.based = true ∧
      deck29.dLow 3 = some 132800 ∧ State.reset.dLow 0 = none ∧ (State.reset.sector 0).defined = false := by
  decide +kernel

/-- One probe for each row of section 3.2. -/
def probed : State := { State.reset with probes := #v[Probe.fresh, Probe.fresh, { Probe.fresh with invalidRun := 1 },
  { Probe.fresh with invalidRun := 2 }, { Probe.fresh with state := .good },
  { Probe.fresh with state := .good, invalidRun := 2 }, { Probe.fresh with state := .fault },
  { Probe.fresh with state := .fault, recoveryRun := 1 }, { Probe.fresh with state := .fault, recoveryRun := 2 },
  { Probe.fresh with state := .fault, recoveryRun := 3 }, { Probe.fresh with state := .fault }, Probe.fresh] }

theorem witness_SamplesActOnTheirProbes :
    probed.phase = .running ∧ probed.sampleTimer = true ∧ ((probed.probe 0).state = .new ∧ (-300 : Int) ≤ -300) ∧
      ((probed.probe 2).state ≠ .fault ∧ ¬(-300 ≤ (-301 : Int)) ∧ (probed.probe 2).invalidRun ≤ 1) ∧
      ((probed.probe 5).state ≠ .fault ∧ ¬((801 : Int) ≤ 800) ∧ (probed.probe 5).invalidRun = 2) ∧
      ((probed.probe 4).state = .good ∧ (800 : Int) ≤ 800) ∧
      ((probed.probe 6).state = .fault ∧ (probed.probe 6).recoveryRun = 0) ∧
      ((probed.probe 7).recoveryRun = 1 ∧ (probed.probe 8).recoveryRun = 2) ∧
      ((probed.probe 9).state = .fault ∧ (probed.probe 9).recoveryRun = 3) := by decide +kernel

theorem witness_AverageRoundsDown :
    let p : Probe := { Probe.fresh with state := .good, window := #v[800, -300, 800, -300] }
    p.state = .good ∧ (∀ i : Fin 4, (-300 : Int) ≤ p.window[i] ∧ p.window[i] ≤ 800) ∧ Probe.fresh.state = .new ∧
      ({ Probe.fresh with state := .fault } : Probe).state = .fault := by decide +kernel

theorem witness_IntervalMaturesEveryChain :
    deck29.phase = .running ∧ deck29.intervalTimer = true ∧ deck29.counters.layersRetired ≤ 4294967295 ∧
      ((deck29.sector 3).defined && !(deck29.sector 3).live.chain.isEmpty) = true := by decide +kernel

/-- Room 50 is granted and room 49 is not, in both modes. -/
theorem witness_GrantLengthFollowsRoom :
    let j := readyJack .A 1 3 132700 60000 none
    let k := readyJack .A 1 3 132701 60000 none
    let s := { deck57 with mode := .crawl, crawlEntry := some 132550 }
    (j.live.state = .ready ∧ deck57.dMax 3 = some 134000 ∧ deck57.hMin = some 132550 ∧ deck57.mode = .rise) ∧
      (50 ≤ min (deck57.active.lnom : Int) (min (134000 - j.live.height) (132550 + deck57.active.tol - j.live.height)) ∧
        min (deck57.active.lnom : Int) (min (134000 - k.live.height) (132550 + deck57.active.tol - k.live.height)) < 50) ∧
      (s.mode = .crawl ∧ s.crawlEntry = some 132550 ∧ s.dMax 3 = some 134000 ∧ s.hMin = some 132550 ∧
        (s.active.crawlStroke : Int) ≤ 132550 + s.active.tol - j.live.height ∧
        (132550 : Int) + s.active.tol - k.live.height < s.active.crawlStroke) := by decide +kernel

theorem witness_DemandTestsTheDeckFirst :
    let held := { deck57 with holds := [⟨.stationB, .pump, .none, 5000⟩] }
    (Port.stationA.station? = some .A ∧ deck57.Hears .stationA ∧ (7 : Byte).toNat < 8 ∧ (16 : Byte).toNat ≤ 16) ∧
      (deckReady.mode = .ready ∧ deckReady.Hears .stationA) ∧
      (held.mode = .rise ∧ held.holds ≠ [] ∧ held.Hears .stationA) ∧ deck57.holds = [] := by decide +kernel

theorem witness_DemandGrantsItsCandidates :
    Port.stationA.station? = some .A ∧ deck57.Hears .stationA ∧ (1 : Byte).toNat = (1 : Fin 8).val ∧
      (16 : Byte).toNat ≤ 16 ∧ deck57.mode = .rise ∧ deck57.holds = [] ∧
      (∀ j : JackIx, (deck57.jack j).live.state = .ready → deck57.grant? j = none) ∧
      deck57.candidates .A (some 1) = [12, 44] ++ 13 :: [] := by decide +kernel

theorem witness_ReportHandlesEntriesInOrder :
    Port.stationA.station? = some .A ∧ deckGranted.Hears .stationA ∧
      1 ≤ [((12 : Byte), (0 : Byte), (196 : Byte))].length ∧
      (List.replicate 16 ((12 : Byte), (0 : Byte), (196 : Byte))).length ≤ 16 := by decide +kernel

theorem witness_ReportEntryOutcomes :
    let v := fun (s : State) (j : JackIx) => (s.jack j).live.state
    ((deckGranted.jack 12).station = .A ∧ v deckGranted 12 = .granted ∧
        deckGranted.grant? 12 = some ⟨.A, 200, 5000, 5030, .rise⟩) ∧
      ((deck5031.jack 44).station = .A ∧ v deck5031 44 = .stalled) ∧
      ((deck57.jack 12).station = .A ∧ v deck57 12 = .ready) ∧ v deck57 0 = .undefined ∧
      ((deck57.jack 40).station ≠ .A ∧ v deck57 40 ≠ .undefined) ∧
      v (deck57.setLive 12 JackLive.fresh) 12 = .unsurveyed ∧ 96 ≤ 96 := by decide +kernel

/-- The placements: no sector exposed; sectors 3 and 9 exposed, with an EXPOSED entry and without one; the crawl limit
reached by one tenth of a millimetre, and not; h_min risen by one, and not. -/
theorem witness_ReportEntryOutcomes_placements :
    let bare := ({ deck57 with active := deck57.active.set 7 6000 }).setSectorLive 3
      { (deck57.sector 3).live with chain := [layer 0 3 126000 128000 0 0], hHard := 126000 }
    let out := bare.setSectorLive 9 { (deck57.sector 9).live with chain := [layer 1 9 126000 128000 0 0], hHard := 126000 }
    let crawl := fun entry : Nat => { deck57 with mode := .crawl, crawlEntry := some entry }
    ((∀ k : SectorIx, deck57.exposed k = false) ∧ deck57.holds = []) ∧
      (out.exposed 3 = true ∧ out.exposed 9 = true ∧ (∀ i : SectorIx, out.exposed i = true → 3 ≤ i) ∧
        out.placeExposed.holds = [⟨.part, .exposed, .sector 3, 5000⟩] ∧
        out.placeExposed.placeExposed.holds = [⟨.part, .exposed, .sector 3, 5000⟩]) ∧
      (deck57.hMin = some 132550 ∧ deck57.active.crawlLim = 3000 ∧ deck57.active.crawlStroke = 50 ∧
        (crawl 129599).placeCrawlLimit.holds = [⟨.part, .crawlLimit, .none, 5000⟩] ∧
        (crawl 129600).placeCrawlLimit.holds = []) ∧
      ((crawl 129599).crawlAfter (some 132549)).holds = [⟨.part, .crawlLimit, .none, 5000⟩] ∧
      ((crawl 129599).crawlAfter (some 132550)).holds = [] ∧ ((crawl 129599).crawlAfter none).holds = [] := by
  decide +kernel

theorem witness_GrantsCloseByCancelAndExpiry :
    let s := { deckGranted with retained := { deckGranted.retained with counter := 5030 } }
    (Port.stationA.station? = some .A ∧ deckGranted.Hears .stationA ∧ 1 ≤ [(12 : Byte)].length ∧
        (List.replicate 16 (12 : Byte)).length ≤ 16) ∧
      (s.phase = .running ∧ s.grant? 12 = some ⟨.A, 200, 5000, 5030, .rise⟩ ∧ 5030 ≤ s.retained.counter) ∧
      (deckGranted.phase = .running ∧ deckGranted.retained.counter < 5030) := by decide +kernel

theorem witness_ModeSetMovesTheDeck :
    deck57.Hears .console ∧ deck57.mode = .rise ∧ deck57.hMin = some 132550 ∧
      (State.reset.Hears .console ∧ State.reset.mode = .ready ∧ State.reset.hMin = none) ∧
      ({ deck57 with mode := .crawl }).mode = .crawl ∧ ({ deck57 with mode := .survey }).mode = .survey := by decide +kernel

theorem witness_HoldRequestsEditTheSet :
    let pump : Hold := ⟨.stationB, .pump, .none, 5000⟩
    let out : Hold := ⟨.part, .exposed, .sector 3, 5000⟩
    let s := { deck57 with holds := [] ++ pump :: [out] }
    let exposed := ({ s with active := s.active.set 7 6000 }).setSectorLive 3
      { (s.sector 3).live with chain := [layer 0 3 126000 128000 0 0], hHard := 126000 }
    (s.Hears .stationB ∧ Qualifier.ofCodes? 0 0 = some .none ∧ HoldReason.external? 3 = some .feed ∧
        (∀ h ∈ s.holds, ¬(h.source = .stationB ∧ h.reason = .feed ∧ h.qualifier = .none)) ∧
        (List.replicate 11 pump).length < 12) ∧
      (HoldReason.external? 2 = some .pump ∧ HoldReason.ofCode? 2 = some .pump ∧ HoldSource.ofCode? 2 = some .stationB ∧
        Port.stationB.source = .stationB) ∧
      (s.Hears .console ∧ Qualifier.ofCodes? 2 3 = some (.sector 3) ∧ HoldSource.ofCode? 5 = some .part ∧
        HoldReason.ofCode? 17 = some .exposed ∧ s.holds = [pump] ++ out :: [] ∧
        ∀ k : SectorIx, s.exposed k = false) ∧
      (HoldSource.stationB ≠ Port.stationA.source ∧ Port.stationA ≠ .console ∧ s.Hears .stationA) ∧
      (exposed.Hears .console ∧ exposed.exposed 3 = true ∧ exposed.holds = [pump] ++ out :: []) := by decide +kernel

theorem witness_LineAndAliveTimersAct :
    deck57.phase = .running ∧ deck57.holdTimer = true ∧ (deck57.hasReason .line = true ↔ deck57.holdFilter = .asserted) := by
  decide +kernel

theorem witness_PlanStageWritesOneField :
    deck57.Hears .console ∧ ([0, 0, 0, 0] : List Byte).length = 4 ∧ (item 0).toNat = 0 ∧ 25 < (item 26).toNat ∧
      (item 25).toNat = (24 : Param).val + 1 ∧ (item 12).toNat = (11 : Param).val + 1 ∧
      Param.lowest 11 ≤ s32At [0xFF, 0xFF, 0xFF, 0x6A] 0 ∧ s32At [0xFF, 0xFF, 0xFF, 0x6A] 0 ≤ Param.highest 11 ∧
      s32At [0xFF, 0xFF, 0xFF, 0x69] 0 < Param.lowest 11 ∧ Param.highest 11 < s32At [0, 0, 0, 1] 0 := by decide +kernel

theorem witness_PlanApplyReplacesThePlan :
    deck57.Hears .console ∧ ¬ deck57.staged.lnom ≤ deck57.staged.tol ∧
      (let q := Plan.factory.set 0 250
      q.lnom ≤ q.tol ∧ q.crawlStroke ≤ q.lnom ∧ q.emb + q.freeboard + 2000 ≤ q.hf ∧ q.rel 0 + 10000 ≤ q.stk 0 ∧
        q.rel 1 + 10000 ≤ q.stk 1 ∧ q.rel 2 + 10000 ≤ q.stk 2 ∧ q.rel 3 + 10000 ≤ q.stk 3) := by decide +kernel

/-- SILENCE, COUNTERS, DIAGNOSE, a save, a load, CLEAR DECK and RESTART need a console that hears. -/
theorem witness_consoleHears :
    deck57.Hears .console ∧ (collecting .console deckReady).Hears .console := by decide +kernel

theorem witness_PortSetHoldsTheSpeed :
    let s := deck57.setReceiver .feed (.answering ⟨.accept, 0x10, []⟩)
    (deck57.Hears .console ∧ (item 3).toNat = Port.feed.number ∧ Speed.ofCode? (4 : Byte).toNat = some .b115200 ∧
        (deck57.port .feed).receiver = .listening ∧ (deck57.port .feed).lineSpeed ≠ .b115200) ∧
      (s.Hears .console ∧ (s.port .feed).receiver = .answering ⟨.accept, 0x10, []⟩) ∧
      (Speed.ofCode? (3 : Byte).toNat = some .b57600 ∧ (deck57.port .feed).lineSpeed = .b57600) ∧
      (item 4).toNat = Port.console.number := by decide +kernel

theorem witness_StoreRequestsAreServed :
    let saving := after (.configSave .console 0 []) deck57
    (saving.phase = .running ∧ saving.storeOp = some (.save deck57.configuration 0)) ∧
      (deck57.Hears .console ∧ deck57.mode = .rise) ∧
      (({ deckGranted with mode := .ready }).grant? 12 ≠ none ∧ ({ deckGranted with mode := .ready }).Hears .console) ∧
      (deckReady.mode = .ready ∧ deckReady.Hears .console ∧ ∀ j : JackIx, deckReady.grant? j = none) := by decide +kernel

theorem witness_LoadEndReplacesTheConfiguration :
    let loading := after (.configLoad .console 0 []) deckReady
    let restoring := after (.configFactory .console 0 []) deckReady
    (loading.phase = .running ∧ loading.storeOp = some .load ∧ loading.store.checkGood = true) ∧
      restoring.phase = .running ∧ restoring.storeOp = some .factory :=
  ⟨⟨by decide +kernel, by decide +kernel, Store.holding_checkGood Configuration.factory⟩, by decide +kernel⟩

theorem witness_ClearDeckClears :
    (deck57.Hears .console ∧ deck57.mode ≠ .ready) ∧
      (({ deckGranted with mode := .ready }).Hears .console ∧ ({ deckGranted with mode := .ready }).mode = .ready ∧
        ({ deckGranted with mode := .ready }).grant? 12 ≠ none) ∧
      (deckReady.mode = .ready ∧ ∀ j : JackIx, deckReady.grant? j = none) := by decide +kernel

theorem witness_PowerResetAndClockAct :
    deck57.phase ≠ .off ∧ (after .powerFail deck57).phase = .off ∧ (after .resetLineLow deck57).phase = .inReset ∧
      deck57.phase ≠ .inReset ∧ deck57.Hears .console := by decide +kernel

/-- A module that does not run, with commands of every kind that it does not take; and running, each event it cannot
meet. -/
theorem witness_PowerResetAndClockAct_ignored :
    let off := after .powerFail deck57
    let acting : List Instr := [.deckClockAdvance, .powerOn, .powerFail, .resetLineLow, .resetLineHigh, .runMarkBreak]
    (off.phase ≠ .running ∧ (∀ c ∈ [Instr.deckSummary .feed 0 [], .byteReceived .feed 0xC5 sound, .frameLengthDiscard .feed,
        .answerSent .feed, .gapTimerExpiry .feed, .maturityIntervalExpiry, .grantExpiry 12, .holdFilterExpiry,
        .aliveTimerExpiry .stationA, .configSaveEnd true], c ∉ acting)) ∧
      (after .resetLineLow deck57).phase ≠ .off ∧ deck57.phase = .running ∧
      ((deck57.port .feed).receiver = .listening ∧
        ((deck57.setReceiver .feed (.answering ⟨.accept, 1, []⟩)).port .feed).receiver = .answering ⟨.accept, 1, []⟩ ∧
        ((collecting .feed deck57).port .feed).receiver = .collecting [0xC5, 1] ∧
        ((deck57.setReceiver .console (.serving [])).port .console).receiver = .serving []) ∧
      deck57.grant? 12 = none ∧ (after .holdFilterExpiry deck57).holdTimer = false ∧ deck57.storeOp = none ∧
      { deck57 with sampleTimer := false, intervalTimer := false }.phase = .running ∧
      Request.ofCode? 0x10 ≠ none := by decide +kernel

/-- A deck that lost its supply and has it back, its memories whole. -/
def deckBack : State := { deck57.rewrite with phase := .starting false }

theorem witness_GoodStartUpRebuildsTheDeck :
    deckBack.phase = .starting false ∧ deckBack.retained.checkGood = true ∧ deckBack.retained.runMark = true ∧
      deckBack.store.checkGood = true :=
  ⟨rfl, deck57.rewrite_checkGood, rfl, Store.holding_checkGood _⟩

theorem witness_LostStartUpClearsTheDeck :
    let found := { deckBack with phase := .starting true }
    (deckBack.phase = .starting false ∧
        ((deckBack.store.checkGood && false) && (deckBack.retained.checkGood && true && deckBack.retained.runMark && true)) =
          false) ∧
      found.phase = .starting true ∧
        ((found.store.checkGood && true) && (found.retained.checkGood && true && found.retained.runMark && !true)) = false := by
  refine ⟨⟨rfl, ?_⟩, rfl, ?_⟩ <;> simp

/-! ### Witnesses of the refusal clauses -/

theorem witness_pagesAreRefused :
    deck57.Hears .stationA ∧ Port.stationA.station? = some .A ∧ deck57.Hears .console ∧ 2 < (3 : Byte).toNat ∧
      9 < (10 : Byte).toNat := by decide +kernel

theorem witness_JackDefine_refusals :
    (deck57.Hears .console ∧ 96 ≤ (item 96).toNat ∧ (item 12).toNat = (12 : JackIx).val ∧ 2 ≤ (2 : Byte).toNat ∧
        (1 : Byte).toNat < 2 ∧ 8 ≤ (8 : Byte).toNat ∧ (7 : Byte).toNat < 8 ∧ 24 ≤ (24 : Byte).toNat ∧ deck57.mode = .rise) ∧
      (deckReady.mode = .ready ∧ (deckReady.jack 12).live.state ≠ .granted ∧ (23 : Byte).toNat = (23 : SectorIx).val ∧
        (deckReady.sector 23).defined = false) := by decide +kernel

theorem witness_Survey_refusals :
    let jump : List Byte := [0, 2, 8, 0x50, 0]
    deck113Surveyed.Hears .console ∧ jump.length = 5 ∧
      (∀ j : JackIx, (item 96).toNat = j.val → (deck113Surveyed.jack j).live.state = .undefined) ∧
      (item 12).toNat = (12 : JackIx).val ∧ (deck113Surveyed.jack 12).live.state = .ready ∧
      2000000 < u32At [0, 0x1E, 0x84, 0x81, 0] 0 ∧ u32At jump 0 ≤ 2000000 ∧ 1 < u8At [0, 2, 8, 0x50, 2] 4 ∧
      u8At jump 4 = 0 ∧
      deck113Surveyed.active.survlim < ((u32At jump 0 : Int) - (deck113Surveyed.jack 12).live.height).natAbs := by
  decide +kernel

theorem witness_JackSet_refusals :
    let fresh := deck113Surveyed.setLive 12 JackLive.fresh
    deck113.Hears .console ∧ (∀ j : JackIx, (item 12).toNat = j.val → (deck113.jack j).live.state = .undefined) ∧
      (fresh.jack 12).live.state = .unsurveyed ∧ (deck113Excluded.jack 12).live.state = .excluded ∧
      (deck113Surveyed.jack 12).live.state = .ready ∧ (item 12).toNat = (12 : JackIx).val := by decide +kernel

theorem witness_SectorRequests_refusals :
    (deck57.Hears .console ∧ ([0, 0x1E, 0x84, 0x81] : List Byte).length = 4 ∧ 24 ≤ (item 24).toNat ∧
        (item 3).toNat = (3 : SectorIx).val ∧ 12 ≤ (12 : Byte).toNat ∧ (12 : Byte) ≠ 0xFF ∧ (11 : Byte).toNat < 12 ∧
        deck57.mode = .rise ∧ 2000000 < u32At [0, 0x1E, 0x84, 0x81] 0 ∧ u32At [0, 0x1E, 0x84, 0x80] 0 ≤ 2000000 ∧
        (deck57.sector 3).defined = true ∧ (deck57.sector 0).defined = false) ∧
      (deckReady.mode = .ready ∧ deckReady.Hears .console ∧ (deckReady.sector 3).live.chain ≠ [] ∧
        ∃ j : JackIx, (deckReady.jack j).live.state ≠ .undefined ∧ (deckReady.jack j).sector = 3) ∧
      (let s := deck113.setSector 5 (oneLayer 5 0 1000 2000)
      s.Hears .console ∧ s.mode = .ready ∧ (s.sector 5).live.chain ≠ [] ∧
        ¬ ∃ j : JackIx, (s.jack j).live.state ≠ .undefined ∧ (s.jack j).sector = 5) := by decide +kernel

theorem witness_LayerPlaced_refusals :
    let full := deck29.setSectorLive 4
      { (deck29.sector 4).live with chain := List.replicate 16 (layer 3 4 118000 118000 0 0) }
    (deck29.Hears .feed ∧ (∀ k : SectorIx, (item 24).toNat = k.val → (deck29.sector k).defined = false) ∧
        (item 4).toNat = (4 : SectorIx).val ∧ (deck29.sector 4).defined = true ∧ (deck29.sector 4).live.based = true ∧
        (0 : Byte).toNat * 256 + (199 : Byte).toNat < 200 ∧ 4000 < (0x0F : Byte).toNat * 256 + (0xA1 : Byte).toNat ∧
        3 < (4 : Byte).toNat) ∧
      (State.reset.setSector 0 ⟨true, none, SectorLive.default⟩ |>.sector 0).live.based = false ∧
      (State.reset.setSector 0 ⟨true, none, ⟨true, 1999801, [], 0, 0⟩⟩ |>.sector 0).fill + 200 > 2000000 ∧
      16 ≤ (full.sector 4).live.chain.length ∧ (full.sector 4).fill + 200 ≤ 2000000 ∧
      ((deck29.sector 4).live.chain.length < 16 ∧ ({ deck29 with freeList := [] } : State).freeList = []) := by
  decide +kernel

theorem witness_LayerWithdraw_refusals :
    let topped := fun l : Layer =>
      deck29.setSectorLive 3 { (deck29.sector 3).live with chain := [layer 2 3 121800 123500 0 9] ++ [l] }
    deck29.Hears .feed ∧ (∀ k : SectorIx, (item 24).toNat = k.val → (deck29.sector k).defined = false) ∧
      ((item 4).toNat = (4 : SectorIx).val ∧ (deck29.sector 4).defined = true ∧ (deck29.sector 4).live.chain = []) ∧
      ((topped (layer 1 3 123500 125000 72000 9)).sector 3).live.chain =
        [layer 2 3 121800 123500 0 9] ++ [layer 1 3 123500 125000 72000 9] ∧
      (layer 1 3 123500 125000 72000 9).released = true ∧
      (layer 1 3 123500 125000 0 10).released = false ∧ 10 ≤ (layer 1 3 123500 125000 0 10).age := by decide +kernel

/-- The deck of section 2.9 has sectors in the slip and out of it, and its chains stand. -/
theorem witness_RetirementKeepsDerivedValues :
    (deck29.sector 3).defined = true ∧ (deck29.sector 3).live.based = true ∧ (deck29.sector 3).live.Stands ∧
      deck29.dLow 3 = some 132800 ∧ (deck29.sector 0).defined = false := by decide +kernel

theorem witness_StrokeDemand_refusals :
    Port.stationA.station? = some .A ∧ deck57.Hears .stationA ∧ 8 ≤ (8 : Byte).toNat ∧ (8 : Byte) ≠ 0xFF ∧
      (7 : Byte).toNat < 8 ∧ 16 < (17 : Byte).toNat := by decide +kernel

theorem witness_console_refusals :
    deck57.Hears .console ∧ 3 < (4 : Byte).toNat ∧ (item 0).toNat = 0 ∧ 4 < (item 5).toNat ∧ (item 4).toNat ≤ 4 ∧
      4 < (5 : Byte).toNat := by decide +kernel

theorem witness_HoldRequests_refusals :
    let full := { deck57 with holds := (List.finRange 12).map fun i : Fin 12 => (⟨.feed, .pump, .jack (i.castLE (by decide)), 5000⟩ : Hold) }
    (full.Hears .stationB ∧ HoldReason.external? (2 : Byte).toNat = some .pump ∧
        Qualifier.ofCodes? (1 : Byte).toNat (95 : Byte).toNat = some (.jack 95) ∧
        (∀ h ∈ full.holds, ¬ (h.source = Port.stationB.source ∧ h.reason = .pump ∧ h.qualifier = .jack 95)) ∧
        12 ≤ (full.holds.filter fun h => h.source.isLink).length) ∧
      (¬ (1 ≤ (16 : Byte).toNat ∧ (16 : Byte).toNat ≤ 6) ∧ 2 < (3 : Byte).toNat ∧ 96 ≤ (96 : Byte).toNat ∧
        24 ≤ (24 : Byte).toNat ∧ 5 < (6 : Byte).toNat ∧ ¬ (16 ≤ (20 : Byte).toNat ∧ (20 : Byte).toNat ≤ 19)) ∧
      (deck57.Hears .console ∧ HoldSource.ofCode? (5 : Byte).toNat = some .part ∧
        HoldReason.ofCode? (17 : Byte).toNat = some .exposed ∧ deck57.holds = []) := by decide +kernel

/-! ### Witnesses of what every step keeps -/

theorem deckWaiting_quiet : deckWaiting.LoadIsQuiet := by
  have h : deckWaiting.storeOp = none := rfl
  intro e
  rw [h] at e
  rcases e with e | e <;> cases e

/-- A load in progress in READY with no live grant. -/
theorem witness_loadIsQuiet :
    let s := after (.configLoad .console 0 []) deckReady
    s.storeOp = some .load ∧ (s.port .console).receiver = .serving [] ∧ s.mode.settingUp = true ∧ s.anyGrant = false := by
  decide +kernel

theorem witness_OutputsFollowEveryStep :
    deckWaiting.PermitsFollow ∧ deckWaiting.SounderFollows ∧ ∃ t, step deckWaiting = .next t :=
  ⟨by decide +kernel, by decide +kernel, _, rfl⟩

/-- Each condition is selected while those above it are false or muted, and none while all are muted. -/
theorem witness_OutputsFollowEveryStep_select :
    let all : Conditions := ⟨true, true, true, true, true⟩
    [all.select Conditions.empty, all.select ⟨true, false, false, false, false⟩,
        Conditions.select ⟨false, false, true, true, true⟩ Conditions.empty,
        all.select ⟨true, true, true, false, false⟩, all.select ⟨true, true, true, true, false⟩, all.select all] =
      [some .held, some .level, some .lag, some .stall, some .probe, none] := by decide

theorem witness_ModeMatchesEveryStep :
    deckWaiting.ModeMatches ∧ deckWaiting.LoadIsQuiet ∧ deckWaiting.GrantsMatch ∧ ∃ t, step deckWaiting = .next t :=
  ⟨by decide +kernel, deckWaiting_quiet, by decide +kernel, _, rfl⟩

theorem witness_GrantsMatchEveryStep :
    deckWaiting.GrantsMatch ∧ deckWaiting.LoadIsQuiet ∧ ∃ t, step deckWaiting = .next t :=
  ⟨by decide +kernel, deckWaiting_quiet, _, rfl⟩

theorem witness_HoldSetStaysLegal : deckWaiting.HoldsOk ∧ ∃ t, step deckWaiting = .next t :=
  ⟨by decide +kernel, _, rfl⟩

theorem witness_RetainedMemoryMirrorsTheDeck :
    (deckWaiting.RetainedMirrors ∧ deckWaiting.retained.jacks[12].state = .ready ∧
        ∃ t, step deckWaiting = .next t ∧ t.retained.jacks[12].state = .granted) ∧
      (let s := { after (.configSave .console 0 []) deck57 with pending := [.configSaveEnd true] }
      s.store.contents.jacks[12] = none ∧ ∃ t, step s = .next t ∧ t.store.contents.jacks[12] ≠ none) :=
  ⟨⟨by decide +kernel, by decide +kernel, _, rfl, by decide +kernel⟩, by decide +kernel, _, rfl, by decide +kernel⟩

/-- A DIAGNOSE that finds a matching retained check lost, and a second that passes under a failing one. -/
theorem witness_RetainedMemoryMirrorsTheDeck_checks :
    (let s := { deck57.rewrite with pending := [.diagnose .console 0 [] ⟨false, true, false, false, .present⟩] }
    s.retained.checkGood = true ∧ ∃ t, step s = .next t ∧ t.retained.checkGood = false) ∧
      (let s := { deck57 with retained := deck57.retained.spoil, pending := [.deckClockAdvance] }
      s.retained.checkGood = false ∧ ∃ t, step s = .next t ∧ t.retained.counter ≠ s.retained.counter) :=
  ⟨⟨deck57.rewrite_checkGood, _, rfl, Retained.spoil_checkGood _⟩, Retained.spoil_checkGood _, _, rfl, by decide +kernel⟩

theorem witness_PoolStaysWhole : deckWaiting.PoolOk ∧ deckWaiting.ChainsStand ∧ ∃ t, step deckWaiting = .next t :=
  ⟨by decide +kernel, by decide +kernel, _, rfl⟩

/-- A deck with a save of its own configuration in progress, and one in which a jack holds a grant. -/
theorem witness_PoolStaysWhole_definitions :
    let saving := after (.configSave .console 0 []) deck57
    (deckWaiting.DefinitionsOk ∧ deckWaiting.GrantsMatch ∧ ∃ t, step deckWaiting = .next t) ∧
      (saving.DefinitionsOk ∧ saving.GrantsMatch ∧ saving.savedConfiguration? = some deck57.configuration) ∧
      deckGranted.DefinitionsOk ∧ deckGranted.GrantsMatch :=
  ⟨⟨by decide +kernel, by decide +kernel, _, rfl⟩, by decide +kernel, by decide +kernel, by decide +kernel⟩

theorem deckWaiting_ranges : deckWaiting.RangesOk := by
  refine ⟨by decide +kernel, by decide +kernel, by decide +kernel, by decide +kernel, by decide +kernel,
    by decide +kernel, by decide +kernel, by decide +kernel, fun p => by cases p <;> decide +kernel, by decide +kernel,
    ?_⟩
  intro p a h
  have : (deckWaiting.port p).receiver = .listening := by cases p <;> decide +kernel
  rw [this] at h
  cases h

theorem witness_PlansAndFlagsStayRight :
    deckWaiting.PlansInRange ∧ deckWaiting.FlagsFollow ∧ deckWaiting.RangesOk ∧ ∃ t, step deckWaiting = .next t :=
  ⟨by decide +kernel, by decide +kernel, deckWaiting_ranges, _, rfl⟩

end Sys2Proof.Tests
end

section
/-! SUPPORT. How a served request is answered, said once for every serving rule: a rule that neither reads nor writes the
ports and the alive timers (it is link-blind) gives the same deck and the same reply before and after its frame is counted,
so what it does to the state at the frame's arrival is what `Answered` asks of the command. -/

namespace Sys2Proof.Machine

/-! ### The part of the state that a frame itself writes -/

/-- The ports and the alive timers: what a good frame and its answer change (R126, R144, R154). -/
structure Link where
  ports  : Vector PortRec 4
  aliveA : Option Nat
  aliveB : Option Nat

/-- The link of a state. -/
def State.link (s : State) : Link := ⟨s.ports, s.aliveA, s.aliveB⟩

/-- The same deck with another link. -/
def State.withLink (s : State) (l : Link) : State := { s with ports := l.ports, aliveA := l.aliveA, aliveB := l.aliveB }

theorem State.withLink_link (s : State) : s.withLink s.link = s := rfl

section WithLink

variable (s : State) (l : Link)

/-! Reading the deck does not see the link. -/

@[simp] theorem State.withLink_jack (j : JackIx) : (s.withLink l).jack j = s.jack j := rfl
@[simp] theorem State.withLink_sector (k : SectorIx) : (s.withLink l).sector k = s.sector k := rfl
@[simp] theorem State.withLink_mode : (s.withLink l).mode = s.mode := rfl
@[simp] theorem State.withLink_active : (s.withLink l).active = s.active := rfl
@[simp] theorem State.withLink_hMin : (s.withLink l).hMin = s.hMin := rfl
@[simp] theorem State.withLink_definedJack? (item : Item) : (s.withLink l).definedJack? item = s.definedJack? item := rfl
@[simp] theorem State.withLink_definedSector? (item : Item) :
    (s.withLink l).definedSector? item = s.definedSector? item := rfl

/-! Updating the deck leaves the link alone. -/

@[simp] theorem State.withLink_setJack (j : JackIx) (x : Jack) :
    (s.withLink l).setJack j x = (s.setJack j x).withLink l := rfl
@[simp] theorem State.withLink_setLive (j : JackIx) (x : JackLive) :
    (s.withLink l).setLive j x = (s.setLive j x).withLink l := rfl
@[simp] theorem State.withLink_setSector (k : SectorIx) (x : Sector) :
    (s.withLink l).setSector k x = (s.setSector k x).withLink l := rfl
@[simp] theorem State.withLink_setSectorLive (k : SectorIx) (x : SectorLive) :
    (s.withLink l).setSectorLive k x = (s.setSectorLive k x).withLink l := rfl
@[simp] theorem State.withLink_commit : (s.withLink l).commit = s.commit.withLink l := rfl

@[simp] theorem State.withLink_retireSector (k : SectorIx) :
    (s.withLink l).retireSector k = (s.retireSector k).withLink l := by
  have hd : (s.withLink l).dLow k = s.dLow k := rfl
  unfold State.retireSector
  rw [hd, s.withLink_sector]
  cases s.dLow k with
  | none => rfl
  | some d => cases (s.sector k).inSlip <;> rfl

@[simp] theorem State.withLink_retireSectors (ks : List SectorIx) :
    (s.withLink l).retireSectors ks = (s.retireSectors ks).withLink l := by
  induction ks generalizing s with
  | nil => rfl
  | cons k ks ih => rw [State.retireSectors_cons, State.withLink_retireSector, ih, State.retireSectors_cons]

theorem State.withLink_placePart (a : HoldSource) (r : HoldReason) (q : Qualifier) :
    (s.withLink l).placePart a r q = (s.placePart a r q).withLink l := by
  have hr : (s.withLink l).hasReason r = s.hasReason r := rfl
  unfold State.placePart
  rw [hr]
  cases s.hasReason r <;> rfl

@[simp] theorem State.withLink_placeExposed : (s.withLink l).placeExposed = s.placeExposed.withLink l := by
  have hf : (s.withLink l).firstExposed = s.firstExposed := rfl
  unfold State.placeExposed
  rw [hf]
  cases s.firstExposed with
  | none => rfl
  | some k => exact s.withLink_placePart l ..

@[simp] theorem State.withLink_crawlAfter (before : Option Nat) :
    (s.withLink l).crawlAfter before = (s.crawlAfter before).withLink l := by
  have hc : (s.withLink l).crawlReached = s.crawlReached := rfl
  unfold State.crawlAfter State.placeCrawlLimit
  rw [hc, s.withLink_hMin, s.withLink_placePart]
  cases raised before s.hMin <;> cases s.crawlReached <;> rfl

@[simp] theorem State.withLink_passMode : (s.withLink l).passMode = s.passMode.withLink l := by
  unfold State.passMode
  rw [s.withLink_mode]
  cases s.mode.moving <;> rfl

end WithLink

/-! ### Link-blind serving rules -/

/-- A serving rule that neither reads nor writes the link. -/
def LinkBlind (serve : State → State × Reply) : Prop :=
  ∀ s l, serve (s.withLink l) = ((serve s).1.withLink l, (serve s).2)

/-- A test of the deck that a rule makes is blind when both its branches are. -/
theorem ite_withLink {c c' : Prop} [Decidable c] [Decidable c'] {l : Link} {x y x' y' : State × Reply} (hc : c' ↔ c)
    (hx : x' = (x.1.withLink l, x.2)) (hy : y' = (y.1.withLink l, y.2)) :
    (if c' then x' else y') = ((if c then x else y).1.withLink l, (if c then x else y).2) := by
  by_cases h : c
  · rw [if_pos h, if_pos (hc.mpr h), hx]
  · rw [if_neg h, if_neg (mt hc.mp h), hy]

/-- A link-blind rule leaves the link as it finds it. -/
theorem LinkBlind.link_eq {serve : State → State × Reply} (blind : LinkBlind serve) (s : State) :
    (serve s).1.link = s.link := by
  have h := blind s s.link
  rw [s.withLink_link] at h
  exact congrArg (fun x => x.1.link) h

/-! ### Answers -/

/-- The answer a reply puts on the line (R150, R151); none for a request that goes on in SERVING. -/
def Reply.answer? (request : Byte) : Reply → Option Answer
  | .accept payload => some ⟨.accept, request, payload⟩
  | .refuse code detail => some ⟨.refuse, request, refusal code detail⟩
  | .serve => none

/-- An answer leaves its port ANSWERING, and counts in REFUSED when it is a refusal (R150, R154). -/
theorem State.respond_answer {reply : Reply} {code : Byte} {a : Answer} (s : State) (p : Port)
    (ha : reply.answer? code = some a) :
    s.respond p code reply = s.setPort p { s.port p with
      receiver := .answering a
      counters := { (s.port p).counters with refused := match a.kind with
        | .accept => (s.port p).counters.refused
        | .refuse => sat16 ((s.port p).counters.refused + 1) } } := by
  obtain ⟨x, hx, hr⟩ := s.respond_cases p code reply
  cases reply with
  | accept payload => cases ha; rw [hx, hr]
  | refuse c d => cases ha; rw [hx, hr]
  | serve => cases ha

/-- The link of a port that hears once a good frame has been taken from it (R126, R144). -/
def State.linkAfterFrame (s : State) (p : Port) : Link where
  ports := (s.setPort p { s.port p with
    receiver := .listening
    counters := { (s.port p).counters with good := sat16 ((s.port p).counters.good + 1) } }).ports
  aliveA := if p = .stationA then some s.active.aliveTo else s.aliveA
  aliveB := if p = .stationB then some s.active.aliveTo else s.aliveB

/-- Taking a good frame changes the link alone. -/
theorem State.goodFrame_setReceiver (s : State) (p : Port) :
    (s.setReceiver p .listening).goodFrame p = s.withLink (s.linkAfterFrame p) := by
  rw [State.goodFrame_eq, State.setReceiver, State.setPort_setPort, State.port_setPort, if_pos rfl]
  rfl

/-- No request of section 8.4 carries more than a frame can (R143). -/
theorem Request.le_of_lengthOk {r : Request} {n : Nat} (h : r.lengthOk n = true) : n ≤ 56 := by
  cases r <;> simp [Request.lengthOk] at h <;> omega

/-- A request that its port may send, with a payload of the right length: the reply of a link-blind rule on the state as
the frame finds it is the answer, and the deck it leaves is the deck the command leaves. -/
theorem request_answers {r : Request} {p : Port} {n : Nat} {serve : State → State × Reply} {s u : State} {reply : Reply}
    {a : Answer} (blind : LinkBlind serve) (hears : s.Hears p) (allowed : r.allowed p = true)
    (lengthOk : r.lengthOk n = true) (served : serve s = (u, reply)) (answer : reply.answer? r.code = some a) :
    AnswersWith (request r p n serve s) p a s u := by
  have hlink : u.link = s.link := by simpa [served] using blind.link_eq s
  have hports : u.ports = s.ports := congrArg Link.ports hlink
  have hport : u.port p = s.port p := congrArg (fun v : Vector PortRec 4 => v[p.ix]) hports
  have hgood : ∀ q, (u.withLink (s.linkAfterFrame p)).port q = if q = p then _ else s.port q :=
    fun q => s.port_setPort p q _
  have htake : (s.setReceiver p .listening).take r p n serve =
      (u.withLink (s.linkAfterFrame p)).respond p r.code reply := by
    rw [State.take_cases, State.goodFrame_setReceiver, blind, served, allowed, lengthOk]
    rfl
  rw [request_hears s r p n serve hears (Request.le_of_lengthOk lengthOk), htake, State.respond_answer _ p answer]
  refine ⟨_, rfl, ?_, ?_, ?_, ?_, rfl, ⟨rfl, rfl⟩, rfl⟩
  · refine (State.port_setPort _ p p _).trans ?_
    rw [if_pos rfl, hgood, if_pos rfl, hport]
    cases a.kind <;> rfl
  · intro q hq
    refine (State.port_setPort _ p q _).trans ?_
    rw [if_neg hq, hgood, if_neg hq]
    exact congrArg (fun v : Vector PortRec 4 => v[q.ix]) hports.symm
  · exact congrArg (fun x => if p = .stationA then some s.active.aliveTo else x) (congrArg Link.aliveA hlink).symm
  · exact congrArg (fun x => if p = .stationB then some s.active.aliveTo else x) (congrArg Link.aliveB hlink).symm

end Sys2Proof.Machine
end

section
/-! SUPPORT. The records that items name, the flags of an answer, and the three read requests of chapters 1 and 2. -/

namespace Sys2Proof.Machine

/-! ### Records named by an item -/

theorem index?_eq_some {n k : Nat} {i : Fin n} (h : k = i.val) : index? n k = some i := by
  subst h
  simp [index?]

theorem index?_eq_none {n k : Nat} (h : n ≤ k) : index? n k = none := by
  simp [index?, Nat.not_lt.mpr h]

theorem State.definedJack?_eq_some {s : State} {item : Item} {j : JackIx} (h : item.toNat = j.val)
    (hd : (s.jack j).live.state ≠ .undefined) : s.definedJack? item = some j := by
  simp [State.definedJack?, index?_eq_some h, Jack.defined, hd]

theorem State.definedJack?_eq_none {s : State} {item : Item}
    (h : ∀ j : JackIx, item.toNat = j.val → (s.jack j).live.state = .undefined) : s.definedJack? item = none := by
  rcases Nat.lt_or_ge item.toNat 96 with hlt | hge
  · have hj : index? 96 item.toNat = some ⟨item.toNat, hlt⟩ := index?_eq_some rfl
    simp [State.definedJack?, hj, Jack.defined, h ⟨item.toNat, hlt⟩ rfl]
  · simp [State.definedJack?, index?_eq_none hge]

/-! ### Flags in an answer -/

theorem flag_decide (p : Prop) [Decidable p] (weight : Nat) : flag (decide p) weight = if p then weight else 0 := by
  simp [flag]

theorem boolByte_defined (r : Jack) : boolByte r.defined = be1 (if r.live.state = .undefined then 0 else 1) := by
  by_cases h : r.live.state = .undefined <;> simp [boolByte, flag, Jack.defined, h]

/-! ### The read rules do not see the link -/

theorem serveJackRead_linkBlind (item : Item) : LinkBlind (serveJackRead item) := by
  intro s l
  unfold serveJackRead
  cases index? 96 item.toNat <;> rfl

theorem serveSectorRead_linkBlind (item : Item) : LinkBlind (serveSectorRead item) := by
  intro s l
  unfold serveSectorRead
  cases index? 24 item.toNat <;> rfl

theorem serveLayerRead_linkBlind (item : Item) (payload : List Byte) : LinkBlind (serveLayerRead item payload) := by
  intro s l
  unfold serveLayerRead
  cases index? 24 item.toNat with
  | none => rfl
  | some k => exact ite_withLink Iff.rfl rfl rfl

/-! ### Reads are open to every port -/

section Answers

variable {p : Port} {item : Item} {s u : State} {reply : Reply} {a : Answer}

theorem jackRead_answers (hears : s.Hears p) (served : serveJackRead item s = (u, reply))
    (answer : reply.answer? 0x11 = some a) : Answered (.jackRead p item []) p a s u :=
  request_answers (serveJackRead_linkBlind item) hears rfl rfl served answer

theorem sectorRead_answers (hears : s.Hears p) (served : serveSectorRead item s = (u, reply))
    (answer : reply.answer? 0x12 = some a) : Answered (.sectorRead p item []) p a s u :=
  request_answers (serveSectorRead_linkBlind item) hears rfl rfl served answer

theorem layerRead_answers {page : Byte} (hears : s.Hears p) (served : serveLayerRead item [page] s = (u, reply))
    (answer : reply.answer? 0x13 = some a) : Answered (.layerRead p item [page]) p a s u :=
  request_answers (serveLayerRead_linkBlind item [page]) hears rfl rfl served answer

end Answers

/-! ### What the read rules reply -/

theorem serveJackRead_of_jack {item : Item} {j : JackIx} (s : State) (h : item.toNat = j.val) :
    serveJackRead item s = (s, .accept (s.jackBytes j)) := by
  rw [serveJackRead, index?_eq_some h]

theorem serveSectorRead_of_sector {item : Item} {k : SectorIx} (s : State) (h : item.toNat = k.val) :
    serveSectorRead item s = (s, .accept (s.sectorBytes k)) := by
  rw [serveSectorRead, index?_eq_some h]

theorem serveLayerRead_of_page {item : Item} {k : SectorIx} {page : Byte} (s : State) (h : item.toNat = k.val)
    (hpage : page.toNat ≤ 3) :
    serveLayerRead item [page] s =
      (s, .accept (chainPage (if (s.sector k).inSlip then (s.sector k).live.chain else []) page.toNat)) := by
  rw [serveLayerRead, index?_eq_some h]
  exact if_neg (Nat.not_lt.mpr hpage)

theorem serveLayerRead_of_bad_page {item : Item} {page : Byte} (s : State) (h : item.toNat < 24)
    (hpage : 3 < page.toNat) : serveLayerRead item [page] s = (s, .refuse .range 1) := by
  have hk : index? 24 item.toNat = some ⟨item.toNat, h⟩ := index?_eq_some rfl
  rw [serveLayerRead, hk]
  exact if_pos hpage

end Sys2Proof.Machine

open Sys2Proof Sys2Proof.Machine

/-- Settles O12: the record's bytes are those of the rule, flag by flag. -/
theorem jackReadAnswersTheRecord : Obligations.JackReadAnswersTheRecord := by
  refine ⟨rfl, fun p item s hears hitem => ?_, fun p item j s hears hitem => ?_⟩
  · exact jackRead_answers hears (by rw [serveJackRead, index?_eq_none hitem]) rfl
  · refine jackRead_answers hears (serveJackRead_of_jack s hitem) ?_
    have station : (s.jack j).station.code = match (s.jack j).station with | .A => 0 | .B => 1 := by
      cases (s.jack j).station <;> rfl
    simp only [Reply.answer?, State.jackBytes, boolByte_defined, station, rodShort, flag_decide]
    rfl

/-- Settles O13: both reads answer the record's own bytes, and a page is read off the chain of a based sector alone. -/
theorem sectorAndLayerReadsAnswer : Obligations.SectorAndLayerReadsAnswer := by
  refine ⟨fun p item page s hears => ⟨fun hitem => ⟨?_, ?_⟩, fun hitem hpage => ?_⟩,
    fun p item k s hears hitem => ⟨?_, fun page hpage => ?_⟩⟩
  · exact sectorRead_answers hears (by rw [serveSectorRead, index?_eq_none hitem]) rfl
  · exact layerRead_answers hears (by rw [serveLayerRead, index?_eq_none hitem]) rfl
  · exact layerRead_answers hears (serveLayerRead_of_bad_page s hitem hpage) rfl
  · exact sectorRead_answers hears (serveSectorRead_of_sector s hitem) rfl
  · exact layerRead_answers hears (serveLayerRead_of_page s hitem hpage) rfl

end

section
/-! SUPPORT. The spread rank and the ranking of a demand's candidates, which is the library's insertion sort by rank. -/

namespace Sys2Proof.Machine

/-! ### The spread rank -/

theorem spreadRank_lt (j : JackIx) : spreadRank j < 128 := (BitVec.ofNat 7 j.val).reverse.isLt

theorem spreadRank_testBit (j : JackIx) {i : Nat} (h : i < 7) :
    (spreadRank j).testBit i = j.val.testBit (6 - i) := by
  have hi : 6 - i < 7 := by omega
  rw [spreadRank, BitVec.testBit_toNat, BitVec.getLsbD_reverse, BitVec.getMsbD_eq_getLsbD, BitVec.getLsbD_ofNat]
  simp [h, hi]

theorem spreadRank_injective {j k : JackIx} (h : spreadRank j = spreadRank k) : j = k := by
  have hrev : (BitVec.ofNat 7 j.val).reverse = (BitVec.ofNat 7 k.val).reverse := BitVec.eq_of_toNat_eq h
  have hof : BitVec.ofNat 7 j.val = BitVec.ofNat 7 k.val := by simpa using congrArg BitVec.reverse hrev
  have hval := congrArg BitVec.toNat hof
  rw [BitVec.toNat_ofNat, BitVec.toNat_ofNat] at hval
  exact Fin.ext (by omega)

/-! ### The rank order -/

theorem State.rankBefore_iff (s : State) (a b : JackIx) :
    s.rankBefore a b = true ↔
      (s.jack a).live.height < (s.jack b).live.height ∨
      (s.jack a).live.height = (s.jack b).live.height ∧ spreadRank a ≤ spreadRank b := by
  simp [State.rankBefore]

theorem State.rankBefore_total (s : State) (a b : JackIx) : s.rankBefore a b = true ∨ s.rankBefore b a = true := by
  simp only [State.rankBefore_iff]
  omega

theorem State.rankBefore_trans (s : State) {a b c : JackIx} (hab : s.rankBefore a b = true)
    (hbc : s.rankBefore b c = true) : s.rankBefore a c = true := by
  simp only [State.rankBefore_iff] at *
  omega

/-! ### The candidates -/

theorem State.rankInsert_eq_orderedInsert (s : State) (j : JackIx) (js : List JackIx) :
    s.rankInsert j js = js.orderedInsert (fun a b => s.rankBefore a b = true) j := by
  induction js with
  | nil => rfl
  | cons k rest ih => rw [State.rankInsert, ih, List.orderedInsert_cons]

theorem State.candidates_eq_insertionSort (s : State) (st : Station) (scope : Option (Fin 8)) :
    s.candidates st scope =
      ((List.finRange 96).filter (s.inScope st scope)).insertionSort fun a b => s.rankBefore a b = true := by
  unfold State.candidates List.insertionSort
  congr 1
  funext j js
  exact s.rankInsert_eq_orderedInsert j js

theorem State.candidates_pairwise (s : State) (st : Station) (scope : Option (Fin 8)) :
    (s.candidates st scope).Pairwise fun a b => s.rankBefore a b = true := by
  have : Std.Total fun a b => s.rankBefore a b = true := ⟨s.rankBefore_total⟩
  have : IsTrans JackIx fun a b => s.rankBefore a b = true := ⟨fun _ _ _ => s.rankBefore_trans⟩
  rw [State.candidates_eq_insertionSort]
  exact List.pairwise_insertionSort _ _

theorem State.candidates_nodup (s : State) (st : Station) (scope : Option (Fin 8)) :
    (s.candidates st scope).Nodup := by
  rw [State.candidates_eq_insertionSort, (List.perm_insertionSort _ _).nodup_iff]
  exact (List.nodup_finRange 96).filter _

theorem State.mem_candidates (s : State) (st : Station) (scope : Option (Fin 8)) (j : JackIx) :
    j ∈ s.candidates st scope ↔
      (s.jack j).live.state ≠ .undefined ∧ (s.jack j).station = st ∧ ∀ g ∈ scope, (s.jack j).group = g := by
  rw [State.candidates_eq_insertionSort, List.mem_insertionSort, List.mem_filter]
  cases scope <;> simp [State.inScope, Jack.defined, and_assoc]

end Sys2Proof.Machine

open Sys2Proof Sys2Proof.Machine

/-- Settles O18: no jack stands twice among the candidates and no two jacks share a rank, so the sorted list ascends
strictly. -/
theorem spreadRankOrdersCandidates : Obligations.SpreadRankOrdersCandidates := by
  refine ⟨fun j => ⟨spreadRank_lt j, fun i hi => spreadRank_testBit j hi⟩, fun j k => spreadRank_injective,
    fun s st scope => ⟨?_, s.mem_candidates st scope⟩⟩
  refine ((s.candidates_pairwise st scope).and (s.candidates_nodup st scope)).imp fun {a b} ⟨hab, hne⟩ => ?_
  have hrank : spreadRank a ≠ spreadRank b := fun h => hne (spreadRank_injective h)
  rw [State.rankBefore_iff] at hab
  omega

end

section
/-! SUPPORT. The console's jack requests (sections 1.4 to 1.7): what each serving rule replies in each case of its table,
and the jack table after the operations they share. -/

namespace Sys2Proof.Machine

/-! ### The jack table under the shared operations -/

section JackTable

variable (s : State) (j : JackIx)

@[simp] theorem State.jack_setJack_self (x : Jack) : (s.setJack j x).jack j = x := by
  rw [State.jack_setJack, if_pos rfl]

@[simp] theorem State.commit_jack : s.commit.jack j = s.jack j := rfl

@[simp] theorem State.retireSectors_jack (ks : List SectorIx) : (s.retireSectors ks).jack j = s.jack j :=
  State.retireSectors_induction (P := fun t => t.jack j = s.jack j)
    (fun t k h => (congrArg (fun v : Vector Jack 96 => v[j]) (t.retireSector_jacks k)).trans h) ks s rfl

@[simp] theorem State.placeExposed_jack : s.placeExposed.jack j = s.jack j := by
  rcases s.placeExposed_cases with e | ⟨_, _, _, e⟩ <;> rw [e]
  rfl

@[simp] theorem State.crawlAfter_jack (before : Option Nat) : (s.crawlAfter before).jack j = s.jack j := by
  rcases s.crawlAfter_cases before with e | ⟨_, _, e⟩ <;> rw [e]
  rfl

@[simp] theorem State.passMode_jack : s.passMode.jack j = s.jack j := by
  rcases s.passMode_cases with ⟨_, e⟩ | ⟨_, e⟩ <;> rw [e]
  rfl

end JackTable

/-! ### Modes and the short rod -/

theorem Mode.settingUp_eq_true {m : Mode} (h : m = .survey ∨ m = .ready) : m.settingUp = true := by
  rcases h with rfl | rfl <;> rfl

theorem Mode.settingUp_eq_false {m : Mode} (h : m = .rise ∨ m = .crawl) : m.settingUp = false := by
  rcases h with rfl | rfl <;> rfl

theorem rodShort_eq_false_iff (plan : Plan) (rod : Nat) : rodShort plan rod = false ↔ plan.lnom + 500 ≤ rod := by
  simp [rodShort]

theorem readyOrRodEnd_eq (plan : Plan) (rod : Nat) :
    readyOrRodEnd plan rod = if rod < plan.lnom + 500 then .rodEnd else .ready := by
  simp [readyOrRodEnd, rodShort]

/-! ### JACK DEFINE and UNDEFINE (section 1.4) -/

theorem Station.ofCode?_code (st : Station) : Station.ofCode? st.code = some st := by cases st <;> rfl

theorem Station.ofCode?_eq_none {n : Nat} (h : 2 ≤ n) : Station.ofCode? n = none := by
  match n, h with
  | _ + 2, _ => rfl

theorem Station.exists_code {n : Nat} (h : n < 2) : ∃ st : Station, n = st.code := by
  match n, h with
  | 0, _ => exact ⟨.A, rfl⟩
  | 1, _ => exact ⟨.B, rfl⟩

theorem parseDefine_of_codes (st : Station) (g : Fin 8) (k : SectorIx) :
    parseDefine st.code g.val k.val = .inr (st, g, k) := by
  rw [parseDefine, Station.ofCode?_code, index?_eq_some rfl, index?_eq_some rfl]

theorem parseDefine_bad_station {station : Nat} (group sector : Nat) (h : 2 ≤ station) :
    parseDefine station group sector = .inl 2 := by
  rw [parseDefine, Station.ofCode?_eq_none h]

theorem parseDefine_bad_group {station group : Nat} (sector : Nat) (hs : station < 2) (h : 8 ≤ group) :
    parseDefine station group sector = .inl 3 := by
  obtain ⟨st, rfl⟩ := Station.exists_code hs
  rw [parseDefine, Station.ofCode?_code, index?_eq_none h]

theorem parseDefine_bad_sector {station group sector : Nat} (hs : station < 2) (hg : group < 8) (h : 24 ≤ sector) :
    parseDefine station group sector = .inl 4 := by
  obtain ⟨st, rfl⟩ := Station.exists_code hs
  rw [parseDefine, Station.ofCode?_code, index?_eq_some (i := (⟨group, hg⟩ : Fin 8)) rfl, index?_eq_none h]

/-- A DEFINE writes the identity fields; the live fields are a new jack's or those the jack had. -/
theorem Jack.define_eq (old : Jack) (st : Station) (g : Fin 8) (k : SectorIx) :
    old.define st g k =
      ⟨st, g, k, if old.live.state = .undefined then { JackLive.default with state := .unsurveyed } else old.live⟩ := by
  by_cases h : old.live.state = .undefined <;> simp [Jack.define, Jack.defined, JackLive.fresh, h]

theorem movedSectors_eq (old new : Jack) :
    movedSectors old new =
      if old.levelBearing = true ∧ old.sector ≠ new.sector then sectorPair old.sector new.sector else [] := by
  simp [movedSectors]

theorem State.defineJack_jack (s : State) (j : JackIx) (st : Station) (g : Fin 8) (k : SectorIx) :
    (s.defineJack j st g k).jack j = (s.jack j).define st g k := by
  simp [State.defineJack]

@[simp] theorem State.withLink_defineJack (s : State) (l : Link) (j : JackIx) (st : Station) (g : Fin 8) (k : SectorIx) :
    (s.withLink l).defineJack j st g k = (s.defineJack j st g k).withLink l := by
  simp [State.defineJack]

@[simp] theorem State.withLink_undefineJack (s : State) (l : Link) (j : JackIx) :
    (s.withLink l).undefineJack j = (s.undefineJack j).withLink l := by
  unfold State.undefineJack
  simp only [State.withLink_jack, State.withLink_setJack, State.withLink_retireSectors, State.withLink_passMode,
    State.withLink_commit]
  rfl

theorem serveJackDefine_linkBlind (item : Item) (payload : List Byte) : LinkBlind (serveJackDefine item payload) := by
  intro s l
  unfold serveJackDefine
  cases index? 96 item.toNat with
  | none => rfl
  | some j =>
    cases parseDefine (u8At payload 1) (u8At payload 2) (u8At payload 3) with
    | inl field => rfl
    | inr fields =>
      refine ite_withLink Iff.rfl rfl (ite_withLink Iff.rfl rfl (ite_withLink Iff.rfl rfl ?_))
      simp only [State.withLink_defineJack, State.withLink_jack]

theorem serveJackUndefine_linkBlind (item : Item) : LinkBlind (serveJackUndefine item) := by
  intro s l
  unfold serveJackUndefine
  cases index? 96 item.toNat with
  | none => rfl
  | some j =>
    refine ite_withLink Iff.rfl rfl (ite_withLink Iff.rfl rfl ?_)
    simp only [State.withLink_undefineJack]

section Define

variable {s : State} {item : Item} {j : JackIx} {station group sector : Byte}

theorem serveJackDefine_bad_item (payload : List Byte) (h : 96 ≤ item.toNat) :
    serveJackDefine item payload s = (s, .refuse .item item.toNat) := by
  rw [serveJackDefine, index?_eq_none h]

theorem serveJackDefine_bad_field {field : Nat} (h : item.toNat = j.val)
    (parse : parseDefine station.toNat group.toNat sector.toNat = .inl field) :
    serveJackDefine item [1, station, group, sector] s = (s, .refuse .range field) := by
  have hp : parseDefine (u8At [1, station, group, sector] 1) (u8At [1, station, group, sector] 2)
    (u8At [1, station, group, sector] 3) = .inl field := parse
  simp only [serveJackDefine, index?_eq_some h, hp]

/-- A DEFINE whose fields are good meets the deck's mode, the jack's grant and the sector, in that order. -/
theorem serveJackDefine_good_fields {st : Station} {g : Fin 8} {k : SectorIx} (h : item.toNat = j.val)
    (hst : station.toNat = st.code) (hg : group.toNat = g.val) (hk : sector.toNat = k.val) :
    serveJackDefine item [1, station, group, sector] s =
      if s.mode.settingUp = false then (s, .refuse .mode 0)
      else if (s.jack j).live.state = .granted then (s, .refuse .busy 0)
      else if (s.sector k).defined = false then (s, .refuse .item (256 + k.val))
      else (s.defineJack j st g k, .accept (be1 ((s.jack j).define st g k).live.state.code)) := by
  have hp : parseDefine (u8At [1, station, group, sector] 1) (u8At [1, station, group, sector] 2)
      (u8At [1, station, group, sector] 3) = .inr (st, g, k) := by
    rw [← parseDefine_of_codes st g k, ← hst, ← hg, ← hk]
    rfl
  simp only [serveJackDefine, index?_eq_some h, hp, State.defineJack_jack, Bool.not_eq_true']

theorem serveJackUndefine_bad_item (h : 96 ≤ item.toNat) :
    serveJackUndefine item s = (s, .refuse .item item.toNat) := by
  rw [serveJackUndefine, index?_eq_none h]

theorem serveJackUndefine_of_jack (h : item.toNat = j.val) :
    serveJackUndefine item s =
      if s.mode.settingUp = false then (s, .refuse .mode 0)
      else if (s.jack j).live.state = .granted then (s, .refuse .busy 0)
      else (s.undefineJack j, .accept (be1 0)) := by
  simp only [serveJackUndefine, index?_eq_some h, Bool.not_eq_true']

end Define

/-! ### SURVEY (section 1.5) -/

theorem jump_eq_natAbs (a b : Nat) : jump a b = ((a : Int) - b).natAbs := by
  unfold jump
  omega

theorem JackLive.surveyed_eq (v : JackLive) (plan : Plan) (height : Nat) :
    v.surveyed plan height =
      { v with
        height := height
        state := if v.state = .unsurveyed then if v.rod < plan.lnom + 500 then .rodEnd else .ready else v.state } := by
  rw [JackLive.surveyed, readyOrRodEnd_eq]

/-- A survey changes nothing exactly when it sets a surveyed jack's own height (R8). -/
theorem JackLive.surveyed_eq_self_iff (v : JackLive) (plan : Plan) (height : Nat) :
    v.surveyed plan height = v ↔ v.state ≠ .unsurveyed ∧ height = v.height := by
  constructor
  · intro h
    have hheight : height = v.height := congrArg JackLive.height h
    have hstate := congrArg JackLive.state h
    refine ⟨fun hu => ?_, hheight⟩
    rw [JackLive.surveyed_eq, hu, if_pos rfl] at hstate
    split at hstate <;> cases hstate
  · rintro ⟨hstate, rfl⟩
    simp [JackLive.surveyed, hstate]

/-- A survey of a defined jack leaves it surveyed. -/
theorem JackLive.surveyed_state_ne {v : JackLive} (plan : Plan) (height : Nat) (defined : v.state ≠ .undefined) :
    (v.surveyed plan height).state ≠ .undefined ∧ (v.surveyed plan height).state ≠ .unsurveyed := by
  rw [JackLive.surveyed_eq]
  dsimp only
  by_cases hu : v.state = .unsurveyed
  · rw [if_pos hu]
    split <;> decide
  · rw [if_neg hu]
    exact ⟨defined, hu⟩

theorem JackState.levelBearing_eq {st : JackState} (defined : st ≠ .undefined) (surveyed : st ≠ .unsurveyed) :
    st.levelBearing = decide (st ≠ .excluded) := by
  revert defined surveyed
  cases st <;> decide

/-- A survey that changes something re-evaluates the jack's sector, unless the jack stays EXCLUDED. -/
theorem surveySectors_eq {r : Jack} {plan : Plan} {height : Nat} (defined : r.live.state ≠ .undefined)
    (changes : ¬ (r.live.state ≠ .unsurveyed ∧ height = r.live.height)) :
    surveySectors r { r with live := r.live.surveyed plan height } =
      if (r.live.surveyed plan height).state ≠ .excluded then [r.sector] else [] := by
  obtain ⟨hd, hu⟩ := JackLive.surveyed_state_ne plan height defined
  have moved : (!r.levelBearing || r.live.height != height) = true := by
    by_cases old : r.live.state = .unsurveyed
    · simp [Jack.levelBearing, JackState.levelBearing, old]
    · have hh : r.live.height ≠ height := fun h => changes ⟨old, h.symm⟩
      simp [hh]
  have hheight : (r.live.surveyed plan height).height = height := rfl
  simp only [surveySectors, hheight, moved, Bool.and_true]
  simp [Jack.levelBearing, JackState.levelBearing_eq hd hu]

theorem State.surveyJack_jack (s : State) (j : JackIx) (height : Nat) :
    (s.surveyJack j height).jack j = { s.jack j with live := (s.jack j).live.surveyed s.active height } := by
  unfold State.surveyJack
  dsimp only
  split
  · next h => exact h.symm
  · simp

/-- The deck after an accepted survey of a defined jack (R7, R8, R9). -/
theorem State.surveyJack_eq (s : State) (j : JackIx) (height : Nat) (defined : (s.jack j).live.state ≠ .undefined) :
    s.surveyJack j height =
      if (s.jack j).live.state ≠ .unsurveyed ∧ height = (s.jack j).live.height then s
      else
        ((((s.setLive j ((s.jack j).live.surveyed s.active height)).retireSectors
          (if ((s.jack j).live.surveyed s.active height).state ≠ .excluded then [(s.jack j).sector] else [])).placeExposed.crawlAfter
            s.hMin).passMode).commit := by
  have same : ({ s.jack j with live := (s.jack j).live.surveyed s.active height } : Jack) = s.jack j ↔
      (s.jack j).live.state ≠ .unsurveyed ∧ height = (s.jack j).live.height := by
    rw [← JackLive.surveyed_eq_self_iff _ s.active]
    exact ⟨congrArg Jack.live, fun h => by rw [h]⟩
  unfold State.surveyJack
  dsimp only
  by_cases h : (s.jack j).live.state ≠ .unsurveyed ∧ height = (s.jack j).live.height
  · rw [if_pos (same.mpr h), if_pos h]
  · rw [if_neg (mt same.mp h), if_neg h, surveySectors_eq defined h, State.setLive]

@[simp] theorem State.withLink_surveyJack (s : State) (l : Link) (j : JackIx) (height : Nat) :
    (s.withLink l).surveyJack j height = (s.surveyJack j height).withLink l := by
  unfold State.surveyJack
  simp only [State.withLink_jack, State.withLink_active, State.withLink_hMin, State.withLink_setJack,
    State.withLink_retireSectors, State.withLink_placeExposed, State.withLink_crawlAfter, State.withLink_passMode,
    State.withLink_commit]
  split_ifs <;> rfl

theorem serveSurvey_linkBlind (item : Item) (payload : List Byte) : LinkBlind (serveSurvey item payload) := by
  intro s l
  unfold serveSurvey
  rw [State.withLink_definedJack?]
  cases s.definedJack? item with
  | none => rfl
  | some j =>
    refine ite_withLink Iff.rfl rfl (ite_withLink Iff.rfl rfl (ite_withLink Iff.rfl rfl (ite_withLink Iff.rfl rfl ?_)))
    simp only [State.withLink_surveyJack, State.withLink_jack]

section Survey

variable {s : State} {item : Item} {j : JackIx} {payload : List Byte}

theorem serveSurvey_bad_item (h : s.definedJack? item = none) :
    serveSurvey item payload s = (s, .refuse .item item.toNat) := by
  simp only [serveSurvey, h]

/-- The tests of section 1.5 in their order, and the answer with the old height, the new one and the state. -/
theorem serveSurvey_of_jack (h : s.definedJack? item = some j) :
    serveSurvey item payload s =
      if 2000000 < u32At payload 0 then (s, .refuse .range 1)
      else if 1 < u8At payload 4 then (s, .refuse .range 2)
      else if (s.jack j).live.state = .granted then (s, .refuse .busy 0)
      else if (s.jack j).live.state ≠ .unsurveyed ∧
          s.active.survlim < ((u32At payload 0 : Int) - (s.jack j).live.height).natAbs ∧ u8At payload 4 ≠ 1 then
        (s, .refuse .range (min ((u32At payload 0 : Int) - (s.jack j).live.height).natAbs 65535))
      else
        (s.surveyJack j (u32At payload 0),
          .accept (be4 (s.jack j).live.height ++ be4 (u32At payload 0) ++
            be1 ((s.jack j).live.surveyed s.active (u32At payload 0)).state.code)) := by
  simp only [serveSurvey, h, jump_eq_natAbs, State.surveyJack_jack]
  rfl

end Survey

/-! ### ROD EXTEND (R10) -/

theorem JackLive.extended_eq (v : JackLive) (plan : Plan) (length : Nat) :
    v.extended plan length =
      { v with
        rod := min (v.rod + length) 120000
        state := if v.state = .rodEnd ∧ plan.lnom + 500 ≤ min (v.rod + length) 120000 then .ready else v.state } := by
  simp only [JackLive.extended, rodShort_eq_false_iff]

theorem serveRodExtend_linkBlind (item : Item) (payload : List Byte) : LinkBlind (serveRodExtend item payload) := by
  intro s l
  unfold serveRodExtend
  rw [State.withLink_definedJack?]
  cases s.definedJack? item with
  | none => rfl
  | some j => exact ite_withLink Iff.rfl rfl rfl

section RodExtend

variable {s : State} {item : Item} {j : JackIx} {payload : List Byte}

theorem serveRodExtend_bad_item (h : s.definedJack? item = none) :
    serveRodExtend item payload s = (s, .refuse .item item.toNat) := by
  simp only [serveRodExtend, h]

theorem serveRodExtend_of_jack (h : s.definedJack? item = some j) :
    serveRodExtend item payload s =
      if u16At payload 0 < 1 ∨ 60000 < u16At payload 0 then (s, .refuse .range 1)
      else
        ((s.setLive j ((s.jack j).live.extended s.active (u16At payload 0))).commit,
          .accept (be4 ((s.jack j).live.extended s.active (u16At payload 0)).rod ++
            be1 ((s.jack j).live.extended s.active (u16At payload 0)).state.code)) := by
  simp only [serveRodExtend, h]

end RodExtend

/-! ### JACK SET (R11 to R13) -/

theorem JackState.excludable_iff (st : JackState) :
    st.excludable = true ↔ st = .ready ∨ st = .stalled ∨ st = .slip ∨ st = .rodEnd := by
  cases st <;> simp [JackState.excludable]

theorem JackState.ne_of_excludable {st : JackState} (h : st.excludable = true) :
    st ≠ .undefined ∧ st ≠ .granted ∧ st ≠ .excluded := by
  rw [JackState.excludable_iff] at h
  rcases h with rfl | rfl | rfl | rfl <;> decide

@[simp] theorem State.withLink_excludeJack (s : State) (l : Link) (j : JackIx) :
    (s.withLink l).excludeJack j = (s.excludeJack j).withLink l := by
  simp [State.excludeJack]

@[simp] theorem State.withLink_includeJack (s : State) (l : Link) (j : JackIx) :
    (s.withLink l).includeJack j = (s.includeJack j).withLink l := by
  simp [State.includeJack]

theorem serveJackExclude_linkBlind (item : Item) : LinkBlind (serveJackExclude item) := by
  intro s l
  unfold serveJackExclude
  rw [State.withLink_definedJack?]
  cases s.definedJack? item with
  | none => rfl
  | some j =>
    refine ite_withLink Iff.rfl rfl (ite_withLink Iff.rfl rfl ?_)
    simp only [State.withLink_excludeJack]

theorem serveJackInclude_linkBlind (item : Item) : LinkBlind (serveJackInclude item) := by
  intro s l
  unfold serveJackInclude
  rw [State.withLink_definedJack?]
  cases s.definedJack? item with
  | none => rfl
  | some j =>
    refine ite_withLink Iff.rfl rfl (ite_withLink Iff.rfl rfl ?_)
    simp only [State.withLink_includeJack]; rfl

theorem serveJackClear_linkBlind (item : Item) : LinkBlind (serveJackClear item) := by
  intro s l
  unfold serveJackClear
  rw [State.withLink_definedJack?]
  cases s.definedJack? item with
  | none => rfl
  | some j => exact ite_withLink Iff.rfl rfl (ite_withLink Iff.rfl rfl rfl)

section JackSet

variable {s : State} {item : Item} {j : JackIx}

/-- JACK SET refuses an item that names no defined jack, whatever its action. -/
theorem serveJackSet_bad_item (h : s.definedJack? item = none) :
    serveJackExclude item s = (s, .refuse .item item.toNat) ∧
      serveJackInclude item s = (s, .refuse .item item.toNat) ∧
      serveJackClear item s = (s, .refuse .item item.toNat) := by
  simp only [serveJackExclude, serveJackInclude, serveJackClear, h, and_self]

theorem serveJackExclude_of_jack (h : s.definedJack? item = some j) (hg : (s.jack j).live.state ≠ .granted) :
    serveJackExclude item s =
      if (s.jack j).live.state.excludable = true then (s.excludeJack j, .accept (be1 7))
      else (s, .refuse .state (s.jack j).live.state.code) := by
  cases he : (s.jack j).live.state.excludable <;> simp [serveJackExclude, h, hg, he, JackState.code]

theorem serveJackInclude_of_jack (h : s.definedJack? item = some j) (hg : (s.jack j).live.state ≠ .granted) :
    serveJackInclude item s =
      if (s.jack j).live.state = .excluded then
        (s.includeJack j, .accept (be1 (readyOrRodEnd s.active (s.jack j).live.rod).code))
      else (s, .refuse .state (s.jack j).live.state.code) := by
  by_cases he : (s.jack j).live.state = .excluded <;> simp [serveJackInclude, h, hg, he]

theorem serveJackClear_of_jack (h : s.definedJack? item = some j) (hg : (s.jack j).live.state ≠ .granted) :
    serveJackClear item s =
      if (s.jack j).live.state.excludable = true then
        ((s.setLive j ((s.jack j).live.cleared s.active)).commit,
          .accept (be1 ((s.jack j).live.cleared s.active).state.code))
      else (s, .refuse .state (s.jack j).live.state.code) := by
  cases he : (s.jack j).live.state.excludable <;> simp [serveJackClear, h, hg, he]

end JackSet

/-! ### The console may send each of them -/

section Answers

variable {item : Item} {payload : List Byte} {s u : State} {reply : Reply} {a : Answer}

theorem jackDefine_answers {station group sector : Byte} (hears : s.Hears .console)
    (served : serveJackDefine item [1, station, group, sector] s = (u, reply))
    (answer : reply.answer? 0x54 = some a) :
    Answered (.jackDefine .console item [station, group, sector]) .console a s u :=
  request_answers (serveJackDefine_linkBlind item _) hears rfl rfl served answer

theorem jackUndefine_answers (hears : s.Hears .console) (length : payload.length = 3)
    (served : serveJackUndefine item s = (u, reply)) (answer : reply.answer? 0x54 = some a) :
    Answered (.jackUndefine .console item payload) .console a s u :=
  request_answers (serveJackUndefine_linkBlind item) hears rfl (by simp [Request.lengthOk, length]) served answer

theorem survey_answers (hears : s.Hears .console) (length : payload.length = 5)
    (served : serveSurvey item payload s = (u, reply)) (answer : reply.answer? 0x51 = some a) :
    Answered (.survey .console item payload) .console a s u :=
  request_answers (serveSurvey_linkBlind item payload) hears rfl (by simp [Request.lengthOk, length]) served answer

theorem rodExtend_answers (hears : s.Hears .console) (length : payload.length = 2)
    (served : serveRodExtend item payload s = (u, reply)) (answer : reply.answer? 0x52 = some a) :
    Answered (.rodExtend .console item payload) .console a s u :=
  request_answers (serveRodExtend_linkBlind item payload) hears rfl (by simp [Request.lengthOk, length]) served answer

theorem jackSetExclude_answers (hears : s.Hears .console) (served : serveJackExclude item s = (u, reply))
    (answer : reply.answer? 0x53 = some a) : Answered (.jackSetExclude .console item []) .console a s u :=
  request_answers (serveJackExclude_linkBlind item) hears rfl rfl served answer

theorem jackSetInclude_answers (hears : s.Hears .console) (served : serveJackInclude item s = (u, reply))
    (answer : reply.answer? 0x53 = some a) : Answered (.jackSetInclude .console item []) .console a s u :=
  request_answers (serveJackInclude_linkBlind item) hears rfl rfl served answer

theorem jackSetClear_answers (hears : s.Hears .console) (served : serveJackClear item s = (u, reply))
    (answer : reply.answer? 0x53 = some a) : Answered (.jackSetClear .console item []) .console a s u :=
  request_answers (serveJackClear_linkBlind item) hears rfl rfl served answer

/-! A defined jack that holds no grant, in a state that does not allow the action. -/

variable {j : JackIx} {st : JackState}

theorem jackSetExclude_refuses (hears : s.Hears .console) (hitem : item.toNat = j.val)
    (hst : (s.jack j).live.state = st) (defined : st ≠ .undefined) (idle : st ≠ .granted) (h : st.excludable = false) :
    Refused (.jackSetExclude .console item []) .console 0x53 0x0A st.code s := by
  subst hst
  have table := serveJackExclude_of_jack (State.definedJack?_eq_some hitem defined) idle
  rw [if_neg (by simp [h])] at table
  exact jackSetExclude_answers hears table rfl

theorem jackSetInclude_refuses (hears : s.Hears .console) (hitem : item.toNat = j.val)
    (hst : (s.jack j).live.state = st) (defined : st ≠ .undefined) (idle : st ≠ .granted) (h : st ≠ .excluded) :
    Refused (.jackSetInclude .console item []) .console 0x53 0x0A st.code s := by
  subst hst
  have table := serveJackInclude_of_jack (State.definedJack?_eq_some hitem defined) idle
  rw [if_neg h] at table
  exact jackSetInclude_answers hears table rfl

theorem jackSetClear_refuses (hears : s.Hears .console) (hitem : item.toNat = j.val)
    (hst : (s.jack j).live.state = st) (defined : st ≠ .undefined) (idle : st ≠ .granted) (h : st.excludable = false) :
    Refused (.jackSetClear .console item []) .console 0x53 0x0A st.code s := by
  subst hst
  have table := serveJackClear_of_jack (State.definedJack?_eq_some hitem defined) idle
  rw [if_neg (by simp [h])] at table
  exact jackSetClear_answers hears table rfl

end Answers

end Sys2Proof.Machine

open Sys2Proof Sys2Proof.Machine

/-- Settles O21: the tests of R10 in their order, then the sum and the state that `JackLive.extended` gives. -/
theorem rodExtendAddsRod : Obligations.RodExtendAddsRod := by
  intro s item payload hears length
  refine ⟨fun unnamed => ?_, fun j hitem defined => ⟨fun bad => ?_, fun low high => ?_⟩⟩
  · exact rodExtend_answers hears length (serveRodExtend_bad_item (s.definedJack?_eq_none unnamed)) rfl
  all_goals have named := State.definedJack?_eq_some hitem defined
  · exact rodExtend_answers hears length ((serveRodExtend_of_jack named).trans (if_pos bad)) rfl
  · have good : ¬ (u16At payload 0 < 1 ∨ 60000 < u16At payload 0) := by omega
    have served := (serveRodExtend_of_jack named).trans (if_neg good)
    rw [JackLive.extended_eq] at served
    exact rodExtend_answers hears length served rfl

/-- Settles O22: the state alone decides; each state that an action names is defined and not granted. -/
theorem jackSetActs : Obligations.JackSetActs := by
  refine ⟨fun s item hears => ⟨fun unnamed => ?_, fun j hitem => ⟨fun hst => ⟨?_, ?_, ?_⟩, fun hst => ⟨?_, ?_⟩,
    fun inService => ?_⟩⟩, fun s item j hears hitem => ⟨fun inService => ?_, fun hst => ?_, fun inService => ?_⟩⟩
  · obtain ⟨exclude, readmit, clear⟩ := serveJackSet_bad_item (s.definedJack?_eq_none unnamed)
    exact ⟨jackSetExclude_answers hears exclude rfl, jackSetInclude_answers hears readmit rfl,
      jackSetClear_answers hears clear rfl⟩
  · exact jackSetExclude_refuses hears hitem hst (by decide) (by decide) rfl
  · exact jackSetClear_refuses hears hitem hst (by decide) (by decide) rfl
  · exact jackSetInclude_refuses hears hitem hst (by decide) (by decide) (by decide)
  · exact jackSetExclude_refuses hears hitem hst (by decide) (by decide) rfl
  · exact jackSetClear_refuses hears hitem hst (by decide) (by decide) rfl
  · obtain ⟨defined, idle, included⟩ := JackState.ne_of_excludable ((JackState.excludable_iff _).mpr inService)
    exact jackSetInclude_refuses hears hitem rfl defined idle included
  · have excludable := (JackState.excludable_iff _).mpr inService
    obtain ⟨defined, idle, -⟩ := JackState.ne_of_excludable excludable
    have table := serveJackExclude_of_jack (State.definedJack?_eq_some hitem defined) idle
    rw [if_pos excludable] at table
    exact jackSetExclude_answers hears table rfl
  · have table := serveJackInclude_of_jack (s := s) (State.definedJack?_eq_some hitem (by simp [hst])) (by simp [hst])
    simp only [if_pos hst, State.includeJack, readyOrRodEnd_eq] at table
    exact jackSetInclude_answers hears table rfl
  · have excludable := (JackState.excludable_iff _).mpr inService
    obtain ⟨defined, idle, -⟩ := JackState.ne_of_excludable excludable
    have table := serveJackClear_of_jack (State.definedJack?_eq_some hitem defined) idle
    rw [if_pos excludable, JackLive.cleared, readyOrRodEnd_eq] at table
    exact jackSetClear_answers hears table rfl

/-- Settles O20: the tests of section 1.5 in their order, then the record and the deck that an accepted survey leaves. -/
theorem surveySetsTheHeight : Obligations.SurveySetsTheHeight := by
  refine ⟨fun s item payload hears length => ⟨fun unnamed => ?_, fun j hitem defined => ?_⟩,
    fun s item j payload hears hitem length defined idle => ?_⟩
  · exact survey_answers hears length (serveSurvey_bad_item (s.definedJack?_eq_none unnamed)) rfl
  · have table := serveSurvey_of_jack (payload := payload) (State.definedJack?_eq_some hitem defined)
    refine ⟨fun high => ?_, fun low bad => ?_, fun low unforced idle surveyed far => ?_⟩
    · rw [if_pos high] at table
      exact survey_answers hears length table rfl
    · rw [if_neg (by omega), if_pos bad] at table
      exact survey_answers hears length table rfl
    · rw [if_neg (by omega), if_neg (by omega), if_neg idle, if_pos ⟨surveyed, far, by omega⟩] at table
      exact survey_answers hears length table rfl
  · intro v height hheight hqualifier near state moved
    have table := serveSurvey_of_jack (payload := payload) (State.definedJack?_eq_some hitem defined)
    have notFar : ¬ (v.state ≠ .unsurveyed ∧ s.active.survlim < ((height : Int) - v.height).natAbs ∧
        u8At payload 4 ≠ 1) := by
      rintro ⟨surveyed, far, unforced⟩
      rcases near with h | h | h
      · exact surveyed h
      · omega
      · exact unforced h
    rw [if_neg (by omega), if_neg (by omega), if_neg idle, if_neg notFar, s.surveyJack_eq j _ defined,
      JackLive.surveyed_eq] at table
    exact survey_answers hears length table rfl

/-- Settles O19: the fields are judged before the deck, and the deck left is the one that R5, R6 and R9 give. -/
theorem jackDefineWritesTheRecord : Obligations.JackDefineWritesTheRecord := by
  refine ⟨fun s item a b c hears => ⟨fun hitem => ⟨?_, ?_⟩, fun j hitem => ⟨fun ha => ?_, fun ha hb => ?_,
    fun ha hb hc => ?_, fun moving => ⟨?_, fun ha hb hc => ?_⟩, fun standing idle k ha hb hc undef => ?_⟩⟩,
    fun s item j hears hitem standing idle => ⟨fun station group sector a b c ha hb hc defined => ?_,
      fun tail length => ?_⟩⟩
  · exact jackDefine_answers hears (serveJackDefine_bad_item _ hitem) rfl
  · exact jackUndefine_answers hears rfl (serveJackUndefine_bad_item hitem) rfl
  · exact jackDefine_answers hears (serveJackDefine_bad_field hitem (parseDefine_bad_station _ _ ha)) rfl
  · exact jackDefine_answers hears (serveJackDefine_bad_field hitem (parseDefine_bad_group _ ha hb)) rfl
  · exact jackDefine_answers hears (serveJackDefine_bad_field hitem (parseDefine_bad_sector ha hb hc)) rfl
  · exact jackUndefine_answers hears rfl
      ((serveJackUndefine_of_jack hitem).trans (if_pos (Mode.settingUp_eq_false moving))) rfl
  · obtain ⟨st, hst⟩ := Station.exists_code ha
    have table := serveJackDefine_good_fields (s := s) (g := ⟨b.toNat, hb⟩) (k := ⟨c.toNat, hc⟩) hitem hst rfl rfl
    rw [if_pos (Mode.settingUp_eq_false moving)] at table
    exact jackDefine_answers hears table rfl
  · obtain ⟨st, hst⟩ := Station.exists_code ha
    have table := serveJackDefine_good_fields (s := s) (g := ⟨b.toNat, hb⟩) hitem hst rfl hc
    rw [Mode.settingUp_eq_true standing, if_neg (by decide), if_neg idle, if_pos undef] at table
    exact jackDefine_answers hears table rfl
  · have hst : station.toNat = a.code := by rw [ha]; cases a <;> rfl
    have table := serveJackDefine_good_fields (s := s) hitem hst hb hc
    rw [Mode.settingUp_eq_true standing, if_neg (by decide), if_neg idle, if_neg (by simp [defined]),
      State.defineJack, Jack.define_eq, movedSectors_eq] at table
    exact jackDefine_answers hears table rfl
  · have table := serveJackUndefine_of_jack (s := s) hitem
    rw [Mode.settingUp_eq_true standing, if_neg (by decide), if_neg idle] at table
    exact jackUndefine_answers hears length table rfl

end

section
/-! SUPPORT. The console's sector requests (section 1.10): what each serving rule replies in each case of its table. -/

namespace Sys2Proof.Machine

/-! ### Probes and named sectors -/

theorem parseProbe_none : parseProbe 0xFF = some none := rfl

theorem parseProbe_of_probe (n : ProbeIx) : parseProbe n.val = some (some n) := by
  have hn : n.val ≠ 0xFF := by omega
  rw [parseProbe, if_neg hn, index?_eq_some rfl]
  rfl

theorem parseProbe_bad {b : Nat} (h : 12 ≤ b) (hnone : b ≠ 0xFF) : parseProbe b = none := by
  rw [parseProbe, if_neg hnone, index?_eq_none h]
  rfl

/-- A probe byte that names a probe or NONE is read. -/
theorem parseProbe_isSome {b : Byte} (h : b.toNat < 12 ∨ b = 0xFF) : ∃ probe, parseProbe b.toNat = some probe := by
  rcases h with h | rfl
  · exact ⟨_, parseProbe_of_probe ⟨b.toNat, h⟩⟩
  · exact ⟨_, parseProbe_none⟩

theorem State.named_iff (s : State) (k : SectorIx) :
    s.named k = true ↔ ∃ j : JackIx, (s.jack j).live.state ≠ .undefined ∧ (s.jack j).sector = k := by
  simp only [State.named, List.any_eq_true, Vector.mem_toList_iff, Jack.defined, Bool.and_eq_true, bne_iff_ne, beq_iff_eq]
  constructor
  · rintro ⟨r, hr, h⟩
    obtain ⟨i, hi, rfl⟩ := Vector.mem_iff_getElem.mp hr
    exact ⟨⟨i, hi⟩, h⟩
  · rintro ⟨j, h⟩
    exact ⟨s.jack j, Vector.getElem_mem j.isLt, h⟩

theorem State.definedSector?_eq_some {s : State} {item : Item} {k : SectorIx} (h : item.toNat = k.val)
    (hd : (s.sector k).defined = true) : s.definedSector? item = some k := by
  simp [State.definedSector?, index?_eq_some h, hd]

theorem State.definedSector?_eq_none {s : State} {item : Item} {k : SectorIx} (h : item.toNat = k.val)
    (hd : (s.sector k).defined = false) : s.definedSector? item = none := by
  simp [State.definedSector?, index?_eq_some h, hd]

/-- The mode either allows definitions or is one in which the deck moves. -/
theorem Mode.settingUp_of_not_moving {m : Mode} (h : ¬ (m = .rise ∨ m = .crawl)) : m.settingUp = true := by
  cases m <;> simp_all [Mode.settingUp, Mode.moving]

/-! ### SECTOR DEFINE and UNDEFINE (R16, R17) -/

theorem serveSectorDefine_linkBlind (item : Item) (payload : List Byte) : LinkBlind (serveSectorDefine item payload) := by
  intro s l
  unfold serveSectorDefine
  cases index? 24 item.toNat with
  | none => rfl
  | some k =>
    cases parseProbe (u8At payload 1) with
    | none => rfl
    | some probe =>
      refine ite_withLink Iff.rfl rfl ?_
      simp only [State.withLink_sector, State.withLink_setSector, State.withLink_passMode, State.withLink_commit]

theorem serveSectorUndefine_linkBlind (item : Item) : LinkBlind (serveSectorUndefine item) := by
  intro s l
  unfold serveSectorUndefine
  cases index? 24 item.toNat with
  | none => rfl
  | some k =>
    refine ite_withLink Iff.rfl rfl (ite_withLink Iff.rfl rfl (ite_withLink Iff.rfl rfl ?_))
    simp only [State.withLink_setSector, State.withLink_passMode, State.withLink_commit]

section Define

variable {s : State} {item : Item} {k : SectorIx} {b : Byte}

theorem serveSectorDefine_bad_item (payload : List Byte) (h : 24 ≤ item.toNat) :
    serveSectorDefine item payload s = (s, .refuse .item item.toNat) := by
  rw [serveSectorDefine, index?_eq_none h]

theorem serveSectorDefine_bad_probe (h : item.toNat = k.val) (parse : parseProbe b.toNat = none) :
    serveSectorDefine item [1, b] s = (s, .refuse .range 2) := by
  have hp : parseProbe (u8At [1, b] 1) = none := parse
  simp only [serveSectorDefine, index?_eq_some h, hp]

theorem serveSectorDefine_good_probe {probe : Option ProbeIx} (h : item.toNat = k.val)
    (parse : parseProbe b.toNat = some probe) :
    serveSectorDefine item [1, b] s =
      if s.mode.settingUp = false then (s, .refuse .mode 0)
      else
        ((s.setSector k ((s.sector k).define probe)).passMode.commit,
          .accept (boolByte ((s.sector k).define probe).live.based)) := by
  have hp : parseProbe (u8At [1, b] 1) = some probe := parse
  simp only [serveSectorDefine, index?_eq_some h, hp, Bool.not_eq_true']

theorem serveSectorUndefine_bad_item (h : 24 ≤ item.toNat) :
    serveSectorUndefine item s = (s, .refuse .item item.toNat) := by
  rw [serveSectorUndefine, index?_eq_none h]

theorem serveSectorUndefine_of_sector (h : item.toNat = k.val) :
    serveSectorUndefine item s =
      if s.mode.settingUp = false then (s, .refuse .mode 0)
      else if ∃ j : JackIx, (s.jack j).live.state ≠ .undefined ∧ (s.jack j).sector = k then (s, .refuse .state 1)
      else if (s.sector k).live.chain ≠ [] then (s, .refuse .state 2)
      else ((s.setSector k Sector.undefined).passMode.commit, .accept (be1 0)) := by
  simp only [serveSectorUndefine, index?_eq_some h, Bool.not_eq_true', State.named_iff, List.isEmpty_eq_false_iff]

end Define

/-! ### SECTOR BASE (R18) -/

theorem serveSectorBase_linkBlind (item : Item) (payload : List Byte) : LinkBlind (serveSectorBase item payload) := by
  intro s l
  unfold serveSectorBase
  rw [State.withLink_definedSector?]
  cases s.definedSector? item with
  | none => rfl
  | some k =>
    refine ite_withLink Iff.rfl rfl (ite_withLink Iff.rfl rfl (ite_withLink Iff.rfl rfl ?_))
    simp only [State.withLink_sector, State.withLink_setSectorLive, State.withLink_passMode, State.withLink_commit]

section Base

variable {s : State} {item : Item} {k : SectorIx} {payload : List Byte}

theorem serveSectorBase_bad_item (h : s.definedSector? item = none) :
    serveSectorBase item payload s = (s, .refuse .item item.toNat) := by
  simp only [serveSectorBase, h]

theorem serveSectorBase_of_sector (h : s.definedSector? item = some k) :
    serveSectorBase item payload s =
      if 2000000 < u32At payload 0 then (s, .refuse .range 1)
      else if s.mode.settingUp = false then (s, .refuse .mode 0)
      else if (s.sector k).live.chain ≠ [] then (s, .refuse .state (s.sector k).live.chain.length)
      else
        ((s.setSectorLive k { (s.sector k).live with based := true, hHard := u32At payload 0 }).passMode.commit,
          .accept (be4 (u32At payload 0))) := by
  simp only [serveSectorBase, h, Bool.not_eq_true', List.isEmpty_eq_false_iff]

end Base

/-! ### The console may send each of them -/

section Answers

variable {item : Item} {b : Byte} {payload : List Byte} {s u : State} {reply : Reply} {a : Answer}

theorem sectorDefine_answers (hears : s.Hears .console) (served : serveSectorDefine item [1, b] s = (u, reply))
    (answer : reply.answer? 0x55 = some a) : Answered (.sectorDefine .console item [b]) .console a s u :=
  request_answers (serveSectorDefine_linkBlind item _) hears rfl rfl served answer

theorem sectorUndefine_answers (hears : s.Hears .console) (served : serveSectorUndefine item s = (u, reply))
    (answer : reply.answer? 0x55 = some a) : Answered (.sectorUndefine .console item [b]) .console a s u :=
  request_answers (serveSectorUndefine_linkBlind item) hears rfl rfl served answer

theorem sectorBase_answers (hears : s.Hears .console) (length : payload.length = 4)
    (served : serveSectorBase item payload s = (u, reply)) (answer : reply.answer? 0x56 = some a) :
    Answered (.sectorBase .console item payload) .console a s u :=
  request_answers (serveSectorBase_linkBlind item payload) hears rfl (by simp [Request.lengthOk, length]) served answer

end Answers

end Sys2Proof.Machine

open Sys2Proof Sys2Proof.Machine

/-- Settles O24: the tests of section 1.10 in their order, then the record that each request writes. -/
theorem sectorRequestsWriteTheRecord : Obligations.SectorRequestsWriteTheRecord := by
  refine ⟨fun s item b payload hears length => ⟨fun hitem => ⟨?_, ?_, ?_⟩, fun k hitem => ?_⟩,
    fun s item k hears hitem standing => ⟨fun b probe hb => ?_, fun b unnamed empty => ?_,
      fun payload length low defined empty => ?_⟩⟩
  · exact sectorDefine_answers hears (serveSectorDefine_bad_item _ hitem) rfl
  · exact sectorUndefine_answers hears (serveSectorUndefine_bad_item hitem) rfl
  · have unnamed : s.definedSector? item = none := by rw [State.definedSector?, index?_eq_none hitem]; rfl
    exact sectorBase_answers hears length (serveSectorBase_bad_item unnamed) rfl
  · have undefine := serveSectorUndefine_of_sector (s := s) hitem
    refine ⟨fun hb hnone => ?_, fun moving => ⟨?_, fun hb => ?_⟩, fun standing named => ?_,
      fun standing unnamed layers => ?_, fun undef => ?_, fun defined => ?_⟩
    · have parse : parseProbe b.toNat = none := parseProbe_bad hb fun h => hnone (BitVec.eq_of_toNat_eq h)
      exact sectorDefine_answers hears (serveSectorDefine_bad_probe hitem parse) rfl
    · rw [if_pos (Mode.settingUp_eq_false moving)] at undefine
      exact sectorUndefine_answers hears undefine rfl
    · obtain ⟨probe, parse⟩ := parseProbe_isSome hb
      have define := (serveSectorDefine_good_probe (s := s) hitem parse).trans (if_pos (Mode.settingUp_eq_false moving))
      exact sectorDefine_answers hears define rfl
    · rw [Mode.settingUp_of_not_moving standing, if_neg (by decide), if_pos named] at undefine
      exact sectorUndefine_answers hears undefine rfl
    · rw [Mode.settingUp_of_not_moving standing, if_neg (by decide), if_neg unnamed, if_pos layers] at undefine
      exact sectorUndefine_answers hears undefine rfl
    · exact sectorBase_answers hears length (serveSectorBase_bad_item (State.definedSector?_eq_none hitem undef)) rfl
    · have base := serveSectorBase_of_sector (payload := payload) (State.definedSector?_eq_some hitem defined)
      refine ⟨fun high => ?_, fun low moving => ?_, fun low standing layers => ?_⟩
      · rw [if_pos high] at base
        exact sectorBase_answers hears length base rfl
      · rw [if_neg (by omega), if_pos (Mode.settingUp_eq_false moving)] at base
        exact sectorBase_answers hears length base rfl
      · rw [if_neg (by omega), Mode.settingUp_of_not_moving standing, if_neg (by decide), if_pos layers] at base
        exact sectorBase_answers hears length base rfl
  · have parse : parseProbe b.toNat = some probe := by
      rcases hb with ⟨rfl, rfl⟩ | ⟨n, hn, rfl⟩
      · exact parseProbe_none
      · rw [hn, parseProbe_of_probe]
    have define := serveSectorDefine_good_probe (s := s) hitem parse
    rw [Mode.settingUp_eq_true standing, if_neg (by decide)] at define
    exact sectorDefine_answers hears define rfl
  · have undefine := serveSectorUndefine_of_sector (s := s) hitem
    rw [Mode.settingUp_eq_true standing, if_neg (by decide), if_neg fun ⟨j, hdefined, hk⟩ => unnamed j hdefined hk,
      if_neg (by simp [empty])] at undefine
    exact sectorUndefine_answers hears undefine rfl
  · have base := serveSectorBase_of_sector (payload := payload) (State.definedSector?_eq_some hitem defined)
    rw [if_neg (by omega), Mode.settingUp_eq_true standing, if_neg (by decide), if_neg (by simp [empty])] at base
    exact sectorBase_answers hears length base rfl

end

section
/-! SUPPORT. What a step can do to the records, said once: every step is a run of the changes of `Change`, each named
with what is known when it happens. An invariant of the records is kept by every step when each change keeps it
(`Changes.keep`, `step_changes`). -/

namespace Sys2Proof.Machine

/-! ### The changes -/

/-- The records of `s` with everything else of `t`: the phase, mode, timers, outputs and the two held checks. -/
def State.recordsIn (s t : State) : State :=
  { t with
    jacks := s.jacks, sectors := s.sectors, freeList := s.freeList, probes := s.probes, grants := s.grants
    crawlEntry := s.crawlEntry, holds := s.holds, active := s.active, staged := s.staged, planSerial := s.planSerial
    ports := s.ports, counters := s.counters, storeOp := s.storeOp
    retained := { s.retained with check := t.retained.check }
    store := { s.store with check := t.store.check } }

/-- A port's counters stay in range, and an answer that a change puts on its line fits a frame. -/
structure PortRec.StepsTo (x y : PortRec) : Prop where
  counters : x.counters.InRange → y.counters.InRange
  answer : ∀ a, y.receiver = .answering a → x.receiver = .answering a ∨ a.payload.length ≤ 56

/-- A configuration that the module may take into use: the stored one or the factory image (R167, R169). -/
def State.Offers (s : State) (c : Configuration) : Prop := c = s.store.contents ∨ c = Configuration.factory

/-- The length of a grant under the plan in use: the crawl stroke, or 50 to LNOM (R89). -/
def State.Grantable (s : State) (length : Nat) : Prop :=
  length = s.active.crawlStroke ∨ 50 ≤ length ∧ length ≤ s.active.lnom

/-- The records that a configuration replaces; its speeds follow (R169, R130). -/
def State.replaceRecords (s : State) (c : Configuration) : State :=
  { s with
    jacks := Vector.ofFn fun j => (s.jack j).reconfigure c.jacks[j]
    sectors := Vector.ofFn fun k => (s.sector k).reconfigure c.sectors[k]
    freeList := pushSlots s.freeList (lostSlots (fun k => (s.sector k).live.chain) c)
    active := c.plan
    staged := c.plan
    planSerial := nextSerial s.planSerial
    planRejected := false }

/-- The changes that steps are made of. `matched` is what the step's start knows of its grants: a jack that a grant
names is defined. -/
inductive Change (matched : Prop) (s : State) : State → Prop
  | outer (t : State) : Change matched s (s.recordsIn t)
  | port (p : Port) (x : PortRec) (steps : (s.port p).StepsTo x) : Change matched s (s.setPort p x)
  | clearPorts : Change matched s s.clearPortCounters
  | commit : Change matched s s.commit
  | memory (stamp counter : Nat) (mark : Bool) (hstamp : stamp ≤ max s.retained.stamp s.retained.counter)
      (hcounter : counter ≤ max s.retained.counter clockTop) :
      Change matched s
        { s with retained := { s.retained with stamp := stamp, counter := counter, runMark := mark } }
  | defineJack (j : JackIx) (st : Station) (g : Fin 8) (k : SectorIx) (sector : (s.sector k).defined = true) :
      Change matched s (s.setJack j ((s.jack j).define st g k))
  | undefineJack (j : JackIx) : Change matched s (s.setJack j Jack.undefined)
  | live (j : JackIx) (v : JackLive) (defined : matched → (s.jack j).live.state ≠ .undefined)
      (stays : v.state ≠ .undefined) (range : (s.jack j).live.InRange → v.InRange) : Change matched s (s.setLive j v)
  | issue (st : Station) (j : JackIx) (length : Nat) (ready : (s.jack j).live.state = .ready)
      (moving : s.mode.moving = true) (grantable : s.Grantable length) : Change matched s (s.issue st j length)
  | ungrant (j : JackIx) : Change matched s (s.setGrant j none)
  | holds (hs : List Hold) (old : ∀ h ∈ hs, h ∈ s.holds ∨ h.placed = s.clock) :
      Change matched s { s with holds := hs }
  | count (f : DeckCounters → DeckCounters) (range : s.counters.InRange → (f s.counters).InRange) :
      Change matched s (s.count f)
  | crawl (m : Nat) (lowest : s.hMin = some m) : Change matched s { s with crawlEntry := some m }
  | sample (samples : Vector Int 12) :
      Change matched s { s with probes := Vector.ofFn fun n => (s.probe n).take samples[n] }
  | defineSector (k : SectorIx) (probe : Option ProbeIx) :
      Change matched s (s.setSector k ((s.sector k).define probe))
  | undefineSector (k : SectorIx) (unnamed : s.named k = false) (empty : (s.sector k).live.chain = []) :
      Change matched s (s.setSector k Sector.undefined)
  | base (k : SectorIx) (elevation : Nat) (defined : (s.sector k).defined = true)
      (empty : (s.sector k).live.chain = []) (low : elevation ≤ 2000000) :
      Change matched s (s.setSectorLive k { (s.sector k).live with based := true, hHard := elevation })
  | place (k : SectorIx) (slot : Slot) (free : List Slot) (thickness : Nat) (c : Fin 4)
      (defined : (s.sector k).defined = true) (based : (s.sector k).live.based = true)
      (thick : 200 ≤ thickness ∧ thickness ≤ 4000) (low : (s.sector k).fill + thickness ≤ 2000000)
      (short : (s.sector k).live.chain.length < 16) (top : s.freeList = slot :: free) :
      Change matched s (s.appendLayer k slot free thickness c)
  | withdraw (k : SectorIx) (l : Layer) (defined : (s.sector k).defined = true)
      (top : (s.sector k).live.chain.getLast? = some l) : Change matched s (s.withdrawLayer k l)
  | retire (k : SectorIx) : Change matched s (s.retireSector k)
  | age (k : SectorIx) (n : Nat) :
      Change matched s (s.setSectorLive k { (s.sector k).live with
        chain := ((s.sector k).live.chain.map (Layer.mature n)).map (Layer.refresh s.active) })
  | stage (n : Param) (x : Int) (range : n.lowest ≤ x ∧ x ≤ n.highest) :
      Change matched s { s with staged := s.staged.set n x }
  | apply : Change matched s { s with active := s.staged }.refreshAll
  | serial (n : Nat) (range : n ≤ 65535) : Change matched s { s with planSerial := n }
  | replace (c : Configuration) (offered : s.Offers c) : Change matched s (s.replaceRecords c).refreshAll
  | rebuild (c : Configuration) (offered : s.Offers c) : Change matched s (s.rebuildRecords c).refreshAll
  | lose (c : Configuration) (offered : s.Offers c) : Change matched s (s.loseDeck c)
  | clear : Change matched s s.clearLive
  | startBlocks (c : Configuration) (battery : Nat) : Change matched s (s.startBlocks c battery)
  | beginSave (serial : Nat) : Change matched s { s with storeOp := some (.save s.configuration serial) }
  | storeOp (op : Option StoreOp) (notSave : ∀ c serial, op ≠ some (.save c serial)) :
      Change matched s { s with storeOp := op }
  | saved (c : Configuration) (serial : Nat) (saving : s.storeOp = some (.save c serial)) :
      Change matched s { s with store := Store.holding c }

/-- A run of changes. -/
abbrev Changes (matched : Prop) : State → State → Prop := Relation.ReflTransGen (Change matched)

variable {matched : Prop} {s t u : State}

/-- What each change keeps, a run of changes keeps. -/
theorem Changes.keep {P : State → Prop} (each : ∀ s t, P s → Change matched s t → P t) (run : Changes matched s t)
    (h : P s) : P t := by
  induction run with
  | refl => exact h
  | tail _ last ih => exact each _ _ ih last

theorem Change.run (h : Change matched s t) : Changes matched s t := .single h

/-- A change of anything but the records. -/
theorem Changes.outer (h : s.recordsIn t = t) : Changes matched s t := h ▸ (Change.outer t).run

/-! ### The shared operations -/

theorem Changes.commit : Changes matched s s.commit := Change.commit.run

theorem Changes.rewrite : Changes matched s s.rewrite :=
  Changes.commit.trans (Changes.outer (s := s.commit) (t := s.rewrite) rfl)

theorem Changes.settle : Changes matched s s.settle := Changes.outer rfl

theorem Changes.deriveMode : Changes matched s s.deriveMode := Changes.outer rfl

theorem Changes.passMode : Changes matched s s.passMode := by
  rcases s.passMode_cases with ⟨_, e⟩ | ⟨_, e⟩ <;> rw [e]
  exact Changes.outer rfl

theorem Changes.retireSectors (ks : List SectorIx) : Changes matched s (s.retireSectors ks) :=
  State.retireSectors_induction (P := Changes matched s) (fun _ k run => run.tail (.retire k)) ks s .refl

/-- A hold placed now. -/
theorem Change.append (h : Hold) (now : h.placed = s.clock) : Change matched s { s with holds := s.holds ++ [h] } := by
  refine .holds _ fun x hx => ?_
  rcases List.mem_append.mp hx with hx | hx
  · exact .inl hx
  · exact .inr (List.mem_singleton.mp hx ▸ now)

/-- Holds taken out of the set. -/
theorem Change.remove {hs : List Hold} (sub : hs ⊆ s.holds) : Change matched s { s with holds := hs } :=
  .holds hs fun _ h => .inl (sub h)

theorem Changes.placePart (a : HoldSource) (r : HoldReason) (q : Qualifier) :
    Changes matched s (s.placePart a r q) := by
  rcases s.placePart_cases a r q with ⟨_, e⟩ | ⟨_, e⟩ <;> rw [e]
  exact (Change.append _ rfl).run

theorem Changes.placeExposed : Changes matched s s.placeExposed := by
  rcases s.placeExposed_cases with e | ⟨_, _, _, e⟩ <;> rw [e]
  exact (Change.append _ rfl).run

theorem Changes.placeCrawlLimit : Changes matched s s.placeCrawlLimit := by
  rcases s.placeCrawlLimit_cases with e | ⟨_, _, e⟩ <;> rw [e]
  exact (Change.append _ rfl).run

theorem Changes.crawlAfter (before : Option Nat) : Changes matched s (s.crawlAfter before) := by
  rcases s.crawlAfter_cases before with e | ⟨_, _, e⟩ <;> rw [e]
  exact (Change.append _ rfl).run

theorem Changes.dropReason (r : HoldReason) : Changes matched s (s.dropReason r) :=
  (Change.remove (List.filter_subset_self _)).run

theorem Changes.deliver (k : SectorIx) (n : Nat) : Changes matched s (s.deliver k n) := by
  rcases s.deliver_cases k n with e | e <;> rw [e]
  · exact (Change.age k n).run
  · exact (Change.age k n).run.tail (.retire k)

theorem Changes.interval (inc : State → SectorIx → Nat) : Changes matched s (s.interval inc) :=
  State.interval_induction (P := Changes matched s) s (fun _ k n run => run.trans (Changes.deliver k n)) inc .refl

theorem Changes.credit (n : Nat) : Changes matched s (s.credit n) :=
  State.credit_induction (P := Changes matched s) s (fun _ inc run => run.trans (Changes.interval inc)) .refl n

/-! ### The link -/

theorem sat16_le (x : Nat) : sat16 x ≤ 65535 := Nat.min_le_right ..

theorem sat32_le (x : Nat) : sat32 x ≤ 4294967295 := Nat.min_le_right ..

theorem PortRec.stepsTo_listen {x y : PortRec} (counters : x.counters.InRange → y.counters.InRange)
    (quiet : ∀ a, y.receiver ≠ .answering a) : x.StepsTo y := ⟨counters, fun a h => absurd h (quiet a)⟩

/-- A receiver that turns to another state than ANSWERING. -/
theorem Changes.setReceiver (p : Port) {r : Receiver} (quiet : ∀ a, r ≠ .answering a) :
    Changes matched s (s.setReceiver p r) :=
  (Change.port p { s.port p with receiver := r } (PortRec.stepsTo_listen id quiet)).run

theorem Changes.goodFrame (p : Port) : Changes matched s (s.goodFrame p) := by
  rw [s.goodFrame_eq p]
  refine .head (.port p { s.port p with
    counters := { (s.port p).counters with good := sat16 ((s.port p).counters.good + 1) } } ⟨?_, fun _ h => .inl h⟩)
    (Changes.outer rfl)
  rintro ⟨_, rest⟩
  exact ⟨sat16_le _, rest⟩

/-- What an accepting reply sends fits a frame (R143, R150). -/
def Reply.Fits : Reply → Prop
  | .accept payload => payload.length ≤ 56
  | .refuse _ _ => True
  | .serve => True

theorem refusal_length (code : RefuseCode) (detail : Nat) : (refusal code detail).length = 3 := rfl

theorem Changes.respond (p : Port) (code : Byte) {r : Reply} (fits : r.Fits) :
    Changes matched s (s.respond p code r) := by
  obtain ⟨x, e, hx⟩ := s.respond_cases p code r
  rw [e]
  refine (Change.port p x ?_).run
  cases r with
  | accept payload =>
    subst hx
    exact ⟨id, fun _ h => .inr (by cases h; exact fits)⟩
  | refuse c d =>
    subst hx
    exact ⟨fun ⟨h1, h2, h3, h4, h5, _⟩ => ⟨h1, h2, h3, h4, h5, sat16_le _⟩,
      fun _ h => .inr (by cases h; simp [refusal_length])⟩
  | serve =>
    subst hx
    exact PortRec.stepsTo_listen id fun _ => nofun

theorem Changes.lengthDiscard (p : Port) : Changes matched s (s.lengthDiscard p) := by
  rcases s.lengthDiscard_cases p with ⟨_, _, e⟩ | ⟨r, hr, e⟩ <;> rw [e]
  refine (Change.port p _ (PortRec.stepsTo_listen ?_ ?_)).run
  · exact fun ⟨h1, h2, h3, _, h5, h6⟩ => ⟨h1, h2, h3, sat16_le _, h5, h6⟩
  · rintro a rfl
    simp at hr

theorem Changes.overrunDiscard (p : Port) : Changes matched s (s.overrunDiscard p) := by
  rw [s.overrunDiscard_eq p]
  refine (Change.port p _ (PortRec.stepsTo_listen ?_ ?_)).run
  · exact fun ⟨h1, h2, h3, h4, _, h6⟩ => ⟨h1, h2, h3, h4, sat16_le _, h6⟩
  · exact fun _ => nofun

theorem Changes.gapDiscard (p : Port) {r : Receiver} (quiet : ∀ a, r ≠ .answering a) :
    Changes matched s (s.gapDiscard p r) :=
  .head (.port p { s.port p with counters := { (s.port p).counters with gap := sat16 ((s.port p).counters.gap + 1) } }
    ⟨fun ⟨h1, h2, _, h4, h5, h6⟩ => ⟨h1, h2, sat16_le _, h4, h5, h6⟩, fun _ h => .inl h⟩)
    (Changes.setReceiver p quiet)

theorem Changes.checkFail (p : Port) (code : Byte) (formed : Nat) : Changes matched s (s.checkFail p code formed) := by
  refine .head (.port p { s.port p with
    counters := { (s.port p).counters with check := sat16 ((s.port p).counters.check + 1) } }
    ⟨fun ⟨h1, _, h3, h4, h5, h6⟩ => ⟨h1, sat16_le _, h3, h4, h5, h6⟩, fun _ h => .inl h⟩)
    (Change.run (.port p { (s.countPort p _).port p with receiver := .answering ⟨.refuse, code, refusal .check formed⟩ }
      ⟨id, fun _ h => .inr ?_⟩))
  cases h
  simp [refusal_length]

theorem PortRec.stepsTo_takeSpeed {x y : PortRec} (h : x.StepsTo y) : x.StepsTo y.takeSpeed := by
  unfold PortRec.takeSpeed
  split
  · exact h
  · refine ⟨h.counters, fun a ha => h.answer a ?_⟩
    dsimp only at ha
    split at ha
    · cases ha
    · exact ha

theorem Changes.setSpeed (p : Port) (v : Speed) : Changes matched s (s.setSpeed p v) := by
  have held : (s.port p).StepsTo { s.port p with speed := v } := ⟨id, fun _ h => .inl h⟩
  refine (Change.port p _ ?_).run
  dsimp only
  split
  · exact PortRec.stepsTo_takeSpeed held
  · exact held

theorem Changes.setSpeeds (speeds : Vector Speed 4) : Changes matched s (s.setSpeeds speeds) := by
  unfold State.setSpeeds
  generalize Port.all = ps
  induction ps generalizing s with
  | nil => exact .refl
  | cons p ps ih => exact (Changes.setSpeed p _).trans ih

theorem Changes.reopen (p : Port) : Changes matched s (s.reopen p) :=
  (Change.port p (PortRec.takeSpeed { s.port p with receiver := .listening })
    (PortRec.stepsTo_takeSpeed (PortRec.stepsTo_listen id fun _ => nofun))).run

/-! ### Serving rules -/

/-- What a serving rule leaves is a run of changes, and its reply fits a frame. -/
def Serves (matched : Prop) (s : State) (r : State × Reply) : Prop := Changes matched s r.1 ∧ r.2.Fits

theorem Serves.refuse (code : RefuseCode) (detail : Nat) : Serves matched s (s, .refuse code detail) := ⟨.refl, trivial⟩

theorem Serves.read {payload : List Byte} (fits : payload.length ≤ 56) : Serves matched s (s, .accept payload) :=
  ⟨.refl, fits⟩

theorem Changes.take {r : Request} {p : Port} {n : Nat} {serve : State → State × Reply}
    (served : r.allowed p = true → r.lengthOk n = true → Serves matched (s.goodFrame p) (serve (s.goodFrame p))) :
    Changes matched s (s.take r p n serve) := by
  rw [State.take_cases]
  refine (Changes.goodFrame p).trans ?_
  split
  · exact Changes.respond p _ trivial
  · next allowed =>
    split
    · exact Changes.respond p _ trivial
    · next length =>
      obtain ⟨run, fits⟩ := served (by simpa using allowed) (by simpa using length)
      exact run.trans (Changes.respond p _ fits)

theorem Changes.takeUnknown (p : Port) (code : Byte) : Changes matched s (s.takeUnknown p code) :=
  (Changes.goodFrame p).trans (Changes.respond p _ trivial)

theorem Changes.onFrame {p : Port} {n : Nat} {judge : State → State}
    (judged : Changes matched (s.setReceiver p .listening) (judge (s.setReceiver p .listening))) :
    Changes matched s (s.onFrame p n judge) := by
  have taken := (Changes.setReceiver (matched := matched) (s := s) p (r := .listening) fun _ => nofun).trans judged
  unfold State.onFrame
  split
  · exact .refl
  · split
    · exact Changes.lengthDiscard p
    · exact Changes.overrunDiscard p
  all_goals
    split
    · exact Changes.lengthDiscard p
    · exact taken

theorem whenRunning_changes {f : State → State} (h : whenRunning s f = .next t) (run : Changes matched s (f s)) :
    Changes matched s t := by
  rcases whenRunning_cases s h with ⟨_, rfl⟩ | ⟨_, rfl⟩
  · exact run.trans Changes.settle
  · exact .refl

end Sys2Proof.Machine
end

section
/-! SUPPORT. The serving rules of section 8.4 as runs of changes, each with a reply that fits its frame. -/

namespace Sys2Proof.Machine

variable {matched : Prop} {s t u : State}

/-! ### How long the fields of an answer are -/

section Lengths

variable (x : Nat) (y : Int) (b : Bool)

@[simp] theorem be1_length : (be1 x).length = 1 := rfl
@[simp] theorem be2_length : (be2 x).length = 2 := rfl
@[simp] theorem be4_length : (be4 x).length = 4 := rfl
@[simp] theorem be2i_length : (be2i y).length = 2 := rfl
@[simp] theorem be4i_length : (be4i y).length = 4 := rfl
@[simp] theorem be4?_length (o : Option Nat) : (be4? o).length = 4 := by cases o <;> rfl
@[simp] theorem be4i?_length (o : Option Int) : (be4i? o).length = 4 := by cases o <;> rfl
@[simp] theorem boolByte_length : (boolByte b).length = 1 := rfl

/-- Fields of one length, one after another. -/
theorem length_flatMap_const {α : Type} {f : α → List Byte} {n : Nat} (h : ∀ a, (f a).length = n) (l : List α) :
    (l.flatMap f).length = l.length * n := by
  simp [List.length_flatMap, h]

end Lengths

/-! ### Records named by an item -/

theorem State.of_definedJack? {item : Item} {j : JackIx} (h : s.definedJack? item = some j) :
    (s.jack j).live.state ≠ .undefined := by
  have := (Option.filter_eq_some_iff.mp h).2
  simpa [Jack.defined] using this

theorem State.of_definedSector? {item : Item} {k : SectorIx} (h : s.definedSector? item = some k) :
    (s.sector k).defined = true := (Option.filter_eq_some_iff.mp h).2

/-! ### Live fields of a jack -/

theorem readyOrRodEnd_ne_undefined (plan : Plan) (rod : Nat) : readyOrRodEnd plan rod ≠ .undefined := by
  unfold readyOrRodEnd
  split <;> decide

theorem JackLive.extended_state_ne {v : JackLive} (plan : Plan) (length : Nat) (defined : v.state ≠ .undefined) :
    (v.extended plan length).state ≠ .undefined := by
  rw [JackLive.extended_eq]
  dsimp only
  split
  · decide
  · exact defined

theorem JackLive.cleared_state_ne {v : JackLive} (plan : Plan) (defined : v.state ≠ .undefined) :
    (v.cleared plan).state ≠ .undefined := by
  unfold JackLive.cleared
  dsimp only
  split
  · exact readyOrRodEnd_ne_undefined _ _
  · exact defined

theorem JackLive.stroked_state_ne (v : JackLive) (plan : Plan) (g travel : Nat) :
    (v.stroked plan g travel).state ≠ .undefined := by
  unfold JackLive.stroked JackLive.afterStroke
  dsimp only
  split
  · decide
  · exact readyOrRodEnd_ne_undefined _ _

section Ranges

variable {v : JackLive}

theorem JackLive.surveyed_inRange {plan : Plan} {height : Nat} (low : height ≤ 2000000) (h : v.InRange) :
    (v.surveyed plan height).InRange := ⟨low, h.2⟩

theorem JackLive.extended_inRange (plan : Plan) (length : Nat) (h : v.InRange) : (v.extended plan length).InRange := by
  obtain ⟨hheight, -, rest⟩ := h
  exact ⟨hheight, Nat.min_le_right .., rest⟩

theorem JackLive.cleared_inRange (plan : Plan) (h : v.InRange) : (v.cleared plan).InRange := by
  obtain ⟨hheight, hrod, hlength, hsecond, -, rest⟩ := h
  exact ⟨hheight, hrod, hlength, hsecond, Nat.zero_le _, rest⟩

theorem JackLive.travelled_inRange (travel : Nat) (h : v.InRange) : (v.travelled travel).InRange := by
  obtain ⟨-, hrod, hlength, hsecond, hshort, -, hstalls⟩ := h
  exact ⟨Nat.min_le_right .., (Nat.sub_le ..).trans hrod, hlength, hsecond, hshort, sat16_le _, hstalls⟩

theorem JackLive.judged_inRange (g travel : Nat) (h : v.InRange) : (v.judged g travel).InRange := by
  obtain ⟨hheight, hrod, hlength, hsecond, -, rest⟩ := h
  refine ⟨hheight, hrod, hlength, hsecond, ?_, rest⟩
  unfold JackLive.judged
  dsimp only
  split <;> omega

theorem JackLive.stroked_inRange (plan : Plan) (g travel : Nat) (h : v.InRange) : (v.stroked plan g travel).InRange :=
  JackLive.judged_inRange g travel (JackLive.travelled_inRange travel h)

end Ranges

/-- A defined jack's live fields change. -/
theorem Changes.setLive {j : JackIx} {v : JackLive} (defined : (s.jack j).live.state ≠ .undefined)
    (stays : v.state ≠ .undefined) (range : (s.jack j).live.InRange → v.InRange) :
    Changes matched s (s.setLive j v) := (Change.live j v (fun _ => defined) stays range).run

/-! ### Jacks (chapter 1) -/

theorem Changes.defineJack {j : JackIx} {st : Station} {g : Fin 8} {k : SectorIx}
    (sector : (s.sector k).defined = true) : Changes matched s (s.defineJack j st g k) :=
  (Change.defineJack j st g k sector).run.trans <| (Changes.retireSectors _).trans <|
    Changes.placeExposed.trans <| Changes.passMode.trans Changes.commit

theorem Changes.undefineJack (j : JackIx) : Changes matched s (s.undefineJack j) :=
  (Change.undefineJack j).run.trans <| (Changes.retireSectors _).trans <| Changes.passMode.trans Changes.commit

theorem Changes.surveyJack {j : JackIx} {height : Nat} (defined : (s.jack j).live.state ≠ .undefined)
    (low : height ≤ 2000000) : Changes matched s (s.surveyJack j height) := by
  unfold State.surveyJack
  dsimp only
  split
  · exact .refl
  · exact (Changes.setLive defined (JackLive.surveyed_state_ne _ _ defined).1
      (JackLive.surveyed_inRange low)).trans <| (Changes.retireSectors _).trans <| Changes.placeExposed.trans <|
      (Changes.crawlAfter _).trans <| Changes.passMode.trans Changes.commit

theorem Changes.excludeJack {j : JackIx} (defined : (s.jack j).live.state ≠ .undefined) :
    Changes matched s (s.excludeJack j) :=
  (Changes.setLive (v := { (s.jack j).live with state := .excluded }) defined (by simp) id).trans <|
    (Changes.retireSectors _).trans <| (Changes.crawlAfter _).trans Changes.commit

theorem Changes.includeJack {j : JackIx} (defined : (s.jack j).live.state ≠ .undefined) :
    Changes matched s (s.includeJack j) :=
  (Changes.setLive (v := { (s.jack j).live with state := readyOrRodEnd s.active (s.jack j).live.rod }) defined
    (readyOrRodEnd_ne_undefined _ _) id).trans <|
    (Changes.retireSectors _).trans <| Changes.placeExposed.trans Changes.commit

theorem serveJackDefine_serves (item : Item) (payload : List Byte) :
    Serves matched s (serveJackDefine item payload s) := by
  unfold serveJackDefine
  split
  · exact .refuse ..
  · split
    · exact .refuse ..
    · split_ifs with _ _ undef
      · exact .refuse ..
      · exact .refuse ..
      · exact .refuse ..
      · exact ⟨Changes.defineJack (by simpa using undef), by simp [Reply.Fits]⟩

theorem serveJackUndefine_serves (item : Item) : Serves matched s (serveJackUndefine item s) := by
  unfold serveJackUndefine
  split
  · exact .refuse ..
  · split_ifs
    · exact .refuse ..
    · exact .refuse ..
    · exact ⟨Changes.undefineJack _, by simp [Reply.Fits]⟩

theorem serveJackDefineAny_serves (item : Item) (payload : List Byte) :
    Serves matched s (serveJackDefineAny item payload s) := by
  unfold serveJackDefineAny
  split
  · exact serveJackDefine_serves ..
  · exact serveJackUndefine_serves ..
  · split <;> exact .refuse ..

theorem serveSurvey_serves (item : Item) (payload : List Byte) : Serves matched s (serveSurvey item payload s) := by
  unfold serveSurvey
  dsimp only
  split
  · exact .refuse ..
  · next named =>
    split_ifs with high
    · exact .refuse ..
    · exact .refuse ..
    · exact .refuse ..
    · exact .refuse ..
    · exact ⟨Changes.surveyJack (State.of_definedJack? named) (Nat.not_lt.mp high), by simp [Reply.Fits]⟩

theorem serveRodExtend_serves (item : Item) (payload : List Byte) :
    Serves matched s (serveRodExtend item payload s) := by
  unfold serveRodExtend
  dsimp only
  split
  · exact .refuse ..
  · next named =>
    split_ifs
    · exact .refuse ..
    · have defined := State.of_definedJack? named
      exact ⟨(Changes.setLive defined (JackLive.extended_state_ne _ _ defined)
        (JackLive.extended_inRange _ _)).trans Changes.commit, by simp [Reply.Fits]⟩

theorem serveJackExclude_serves (item : Item) : Serves matched s (serveJackExclude item s) := by
  unfold serveJackExclude
  dsimp only
  split
  · exact .refuse ..
  · next named =>
    split_ifs
    · exact .refuse ..
    · exact .refuse ..
    · exact ⟨Changes.excludeJack (State.of_definedJack? named), by simp [Reply.Fits]⟩

theorem serveJackInclude_serves (item : Item) : Serves matched s (serveJackInclude item s) := by
  unfold serveJackInclude
  dsimp only
  split
  · exact .refuse ..
  · next named =>
    split_ifs
    · exact .refuse ..
    · exact .refuse ..
    · exact ⟨Changes.includeJack (State.of_definedJack? named), by simp [Reply.Fits]⟩

theorem serveJackClear_serves (item : Item) : Serves matched s (serveJackClear item s) := by
  unfold serveJackClear
  dsimp only
  split
  · exact .refuse ..
  · next named =>
    split_ifs
    · exact .refuse ..
    · exact .refuse ..
    · have defined := State.of_definedJack? named
      exact ⟨(Changes.setLive defined (JackLive.cleared_state_ne _ defined) (JackLive.cleared_inRange _)).trans
        Changes.commit, by simp [Reply.Fits]⟩

theorem serveJackSet_serves (item : Item) (payload : List Byte) : Serves matched s (serveJackSet item payload s) := by
  unfold serveJackSet
  split
  · exact serveJackExclude_serves item
  · exact serveJackInclude_serves item
  · exact serveJackClear_serves item
  · split <;> exact .refuse ..

theorem serveJackRead_serves (item : Item) : Serves matched s (serveJackRead item s) := by
  unfold serveJackRead
  split
  · exact .refuse ..
  · exact .read (by simp [State.jackBytes])

/-! ### Sectors (chapter 1) -/

theorem serveSectorDefine_serves (item : Item) (payload : List Byte) :
    Serves matched s (serveSectorDefine item payload s) := by
  unfold serveSectorDefine
  split
  · exact .refuse ..
  · split
    · exact .refuse ..
    · split
      · exact .refuse ..
      · exact ⟨(Change.defineSector _ _).run.trans <| Changes.passMode.trans Changes.commit, by simp [Reply.Fits]⟩

theorem serveSectorUndefine_serves (item : Item) : Serves matched s (serveSectorUndefine item s) := by
  unfold serveSectorUndefine
  split
  · exact .refuse ..
  · split_ifs with _ named layers
    · exact .refuse ..
    · exact .refuse ..
    · exact .refuse ..
    · exact ⟨(Change.undefineSector _ (by simpa using named) (by simpa using layers)).run.trans <|
        Changes.passMode.trans Changes.commit, by simp [Reply.Fits]⟩

theorem serveSectorDefineAny_serves (item : Item) (payload : List Byte) :
    Serves matched s (serveSectorDefineAny item payload s) := by
  unfold serveSectorDefineAny
  split
  · exact serveSectorDefine_serves ..
  · exact serveSectorUndefine_serves ..
  · split <;> exact .refuse ..

theorem serveSectorBase_serves (item : Item) (payload : List Byte) :
    Serves matched s (serveSectorBase item payload s) := by
  unfold serveSectorBase
  dsimp only
  split
  · exact .refuse ..
  · next named =>
    split_ifs with high _ layers
    · exact .refuse ..
    · exact .refuse ..
    · exact .refuse ..
    · exact ⟨(Change.base _ _ (State.of_definedSector? named) (by simpa using layers) (Nat.not_lt.mp high)).run.trans <|
        Changes.passMode.trans Changes.commit, by simp [Reply.Fits]⟩

theorem serveSectorRead_serves (item : Item) : Serves matched s (serveSectorRead item s) := by
  unfold serveSectorRead
  split
  · exact .refuse ..
  · exact .read (by simp [State.sectorBytes])

/-! ### Layers (chapter 2) -/

theorem serveLayerPlaced_serves (item : Item) (payload : List Byte) :
    Serves matched s (serveLayerPlaced item payload s) := by
  unfold serveLayerPlaced
  dsimp only
  split
  · exact .refuse ..
  · next named =>
    split
    · exact .refuse ..
    · next based =>
      split
      · exact .refuse ..
      · next thick =>
        split
        · exact .refuse ..
        · split_ifs with high full
          · exact .refuse ..
          · exact .refuse ..
          · split
            · exact .refuse ..
            · next top =>
              exact ⟨(Change.place _ _ _ _ _ (State.of_definedSector? named) (by simpa using based) (by omega)
                (Nat.not_lt.mp high) (Nat.not_le.mp full) top).run.trans <| Changes.placeExposed.trans Changes.commit,
                by simp [Reply.Fits]⟩

theorem serveLayerWithdraw_serves (item : Item) : Serves matched s (serveLayerWithdraw item s) := by
  unfold serveLayerWithdraw
  split
  · exact .refuse ..
  · next named =>
    split
    · exact .refuse ..
    · next top =>
      split_ifs
      · exact .refuse ..
      · exact .refuse ..
      · exact ⟨(Change.withdraw _ _ (State.of_definedSector? named) top).run.trans Changes.commit, by simp [Reply.Fits]⟩

theorem serveFeedAdvice_serves : Serves matched s (serveFeedAdvice s) := by
  refine .read ?_
  unfold State.adviceBytes
  dsimp only
  split <;> simp

theorem chainPage_length_le (chain : List Layer) (page : Nat) : (chainPage chain page).length ≤ 56 := by
  have layers : ∀ l : Layer, l.bytes.length = 10 := fun _ => rfl
  simp [chainPage, length_flatMap_const layers]
  omega

theorem serveLayerRead_serves (item : Item) (payload : List Byte) :
    Serves matched s (serveLayerRead item payload s) := by
  unfold serveLayerRead
  split
  · exact .refuse ..
  · split
    · exact .refuse ..
    · exact .read (chainPage_length_le ..)

/-! ### Probes and the plan (chapters 3 and 7) -/

theorem serveProbeRead_serves (item : Item) : Serves matched s (serveProbeRead item s) := by
  unfold serveProbeRead
  split
  · exact .refuse ..
  · exact .read (by simp [State.probeBytes])

theorem servePlanStage_serves (item : Item) (payload : List Byte) :
    Serves matched s (servePlanStage item payload s) := by
  unfold servePlanStage
  dsimp only
  split
  · exact .refuse ..
  · split
    · exact .refuse ..
    · exact ⟨(Change.stage _ _ (by omega)).run, by simp [Reply.Fits]⟩

theorem nextSerial_le (n : Nat) : nextSerial n ≤ 65535 := Nat.lt_succ_iff.mp (Nat.mod_lt _ (by decide))

theorem Changes.applyPlan : Changes matched s s.applyPlan := by
  unfold State.applyPlan
  dsimp only
  have serial : Change matched s { s with planSerial := nextSerial s.planSerial } := .serial _ (nextSerial_le _)
  split
  · next same => exact serial.run.trans (Changes.outer (by simp [State.recordsIn, same]))
  · exact serial.run.trans <| Change.apply.run.trans <|
      (Changes.outer (t := State.refreshAll { s with
        active := s.staged, planSerial := nextSerial s.planSerial, planRejected := false }) rfl).trans <|
      (Changes.retireSectors _).trans <| Changes.placeExposed.trans Changes.placeCrawlLimit

theorem servePlanApply_serves : Serves matched s (servePlanApply s) := by
  unfold servePlanApply
  split
  · exact ⟨Changes.outer rfl, trivial⟩
  · exact ⟨Changes.applyPlan.trans Changes.commit, by simp [Reply.Fits]⟩

theorem servePlanReadState_serves : Serves matched s (servePlanReadState s) := .read (by simp [State.planStateBytes])

theorem servePlanRead_serves (item : Item) : Serves matched s (servePlanRead item s) := by
  unfold servePlanRead
  split
  · exact servePlanReadState_serves
  · split
    · exact .refuse ..
    · exact .read (by simp [State.planBytes])

/-! ### Modes and holds (chapter 6) -/

theorem modeAnswer_length : (modeAnswer s).length = 6 := by simp [modeAnswer]

theorem Changes.leaveFor (m : Mode) : Changes matched s (s.leaveFor m) := by
  have mode : Changes matched s { s with mode := m } := Changes.outer rfl
  unfold State.leaveFor
  dsimp only
  split
  · exact mode.trans (Changes.dropReason _)
  · exact mode

theorem Changes.enterCrawl {m : Nat} (lowest : s.hMin = some m) : Changes matched s (s.enterCrawl m) :=
  (Change.crawl m lowest).run.trans (Changes.outer rfl)

theorem serveModeSet_serves (payload : List Byte) : Serves matched s (serveModeSet payload s) := by
  have answer : ∀ t : State, Reply.Fits (.accept (modeAnswer t)) := fun t => by simp [Reply.Fits, modeAnswer_length]
  have read : Serves matched s (s, .accept (modeAnswer s)) := .read (answer s)
  unfold serveModeSet
  split
  · split
    · exact .refuse ..
    · exact ⟨(Changes.leaveFor _).trans Changes.commit, answer _⟩
  · have enter : Serves matched s (match s.hMin with
        | none => (s, Reply.refuse .state 1)
        | some m => ((s.enterCrawl m).commit, .accept (modeAnswer (s.enterCrawl m).commit))) := by
      split
      · exact .refuse ..
      · next lowest => exact ⟨(Changes.enterCrawl lowest).trans Changes.commit, answer _⟩
    split
    · exact .refuse ..
    · exact read
    · exact enter
    · exact enter
  · split
    · exact read
    · exact ⟨(Changes.leaveFor _).trans Changes.commit, answer _⟩
  · exact .refuse ..

theorem serveHoldPlace_serves (p : Port) (payload : List Byte) : Serves matched s (serveHoldPlace p payload s) := by
  unfold serveHoldPlace
  split
  · exact .refuse ..
  · split
    · exact .read (by simp [placeAnswer])
    · split
      · exact .refuse ..
      · exact ⟨(Change.append _ rfl).run.trans Changes.commit, by simp [Reply.Fits, placeAnswer]⟩

theorem serveHoldRelease_serves (p : Port) (payload : List Byte) :
    Serves matched s (serveHoldRelease p payload s) := by
  unfold serveHoldRelease
  split
  · exact .refuse ..
  · split
    · exact .refuse ..
    · split_ifs
      · exact .refuse ..
      · exact .refuse ..
      · exact .refuse ..
      · exact ⟨(Change.remove List.eraseP_subset).run.trans Changes.commit, by simp [Reply.Fits]⟩

theorem holdPage_length_le (holds : List Hold) (page : Nat) : (holdPage holds page).length ≤ 56 := by
  have entries : ∀ h : Hold, h.bytes.length = 8 := fun _ => rfl
  simp [holdPage, length_flatMap_const entries]
  omega

theorem serveHoldList_serves (payload : List Byte) : Serves matched s (serveHoldList payload s) := by
  unfold serveHoldList
  split
  · exact .refuse ..
  · exact .read (holdPage_length_le ..)

/-! ### The annunciator and the link (chapters 8 and 9) -/

theorem serveSilence_serves : Serves matched s (serveSilence s) :=
  ⟨Changes.outer rfl, by simp [serveSilence, Reply.Fits]⟩

theorem serveDeckSummary_serves : Serves matched s (serveDeckSummary s) := .read (by simp [State.summaryBytes])

theorem State.portCounterBytes_length : s.portCounterBytes.length = 48 := rfl

theorem serveCountersReadClear_serves : Serves matched s (serveCountersReadClear s) :=
  ⟨Change.clearPorts.run, by simp [serveCountersReadClear, Reply.Fits, State.portCounterBytes_length]⟩

theorem serveCounters_serves (payload : List Byte) : Serves matched s (serveCounters payload s) := by
  unfold serveCounters
  split
  · exact serveCountersReadClear_serves
  · exact .read (by simp [DeckCounters.bytes])
  · exact .read (by simp [State.portCounterBytes_length])
  · exact .refuse ..

theorem State.diagnoseBytes_length (seen : Findings) : (s.diagnoseBytes seen).length = 21 := by
  have states : ∀ p : Probe, (be1 p.state.code).length = 1 := fun _ => rfl
  simp [State.diagnoseBytes, length_flatMap_const states]

theorem serveDiagnose_serves (seen : Findings) : Serves matched s (serveDiagnose seen s) := by
  refine ⟨?_, by simp [serveDiagnose, Reply.Fits, State.diagnoseBytes_length]⟩
  have retained : { s.retained with check := (s.retained.found seen.retainedIntact).check } =
      s.retained.found seen.retainedIntact := by cases seen.retainedIntact <;> rfl
  have store : { s.store with check := (s.store.found seen.storeIntact).check } =
      s.store.found seen.storeIntact := by cases seen.storeIntact <;> rfl
  unfold serveDiagnose
  dsimp only
  split <;> exact Changes.outer (by simp only [State.recordsIn, State.foundMemories, retained, store])

theorem serveIdentity_serves (p : Port) : Serves matched s (serveIdentity p s) := .read (by simp [State.identityBytes])

theorem servePortSet_serves (item : Item) (payload : List Byte) : Serves matched s (servePortSet item payload s) := by
  unfold servePortSet
  split
  · exact .refuse ..
  · split
    · exact .refuse ..
    · exact ⟨Changes.setSpeed _ _, by simp [Reply.Fits]⟩

/-! ### The store and CLEAR DECK (chapter 10) -/

theorem serveConfigSave_serves : Serves matched s (serveConfigSave s) := ⟨(Change.beginSave _).run, trivial⟩

theorem serveConfigStart_serves {op : StoreOp} (notSave : ∀ c serial, some op ≠ some (.save c serial)) :
    Serves matched s (serveConfigStart op s) := by
  unfold serveConfigStart
  split_ifs
  · exact .refuse ..
  · exact .refuse ..
  · exact ⟨(Change.storeOp _ notSave).run, trivial⟩

theorem serveConfigLoad_serves : Serves matched s (serveConfigLoad s) := serveConfigStart_serves fun _ _ => nofun

theorem serveConfigFactory_serves : Serves matched s (serveConfigFactory s) := serveConfigStart_serves fun _ _ => nofun

theorem Changes.keepLine : Changes matched s s.keepLine := (Change.remove (List.filter_subset_self _)).run

theorem serveClearDeck_serves : Serves matched s (serveClearDeck s) := by
  unfold serveClearDeck
  split_ifs
  · exact .refuse ..
  · exact .refuse ..
  · exact ⟨Change.clear.run.trans <| Changes.keepLine.trans <| Changes.deriveMode.trans Changes.rewrite,
      by simp [Reply.Fits]⟩

theorem serveRestart_serves : Serves matched s (serveRestart s) :=
  ⟨Changes.outer rfl, by simp [serveRestart, Reply.Fits]⟩

end Sys2Proof.Machine
end

section
/-! SUPPORT. The Grant Unit's requests and events as runs of changes (chapter 5). -/

namespace Sys2Proof.Machine

variable {matched : Prop} {s t u : State}

/-! ### STROKE DEMAND (R84 to R92) -/

theorem State.grantable_of_grantLength {hMin : Option Nat} {j : Jack} {length : Nat}
    (h : s.grantLength hMin j = .inr length) : s.Grantable length := by
  unfold State.grantLength at h
  split at h
  · cases h
  · split at h
    · split at h
      · cases h
        exact .inl rfl
      · cases h
    all_goals
      dsimp only at h
      split at h
      · cases h
        exact .inr (by omega)
      · cases h

/-- What is known of a grant when it is made (R87, R89). -/
theorem State.of_judge {hMin : Option Nat} {st : Station} {most made length : Nat} {j : JackIx}
    (h : s.judge hMin st most made j = .inr length) :
    (s.jack j).live.state = .ready ∧ s.Grantable length ∧ made < most := by
  unfold State.judge at h
  dsimp only at h
  split at h
  · cases h
  · next ready =>
    split at h
    · cases h
    · split at h
      · cases h
      · next grantable =>
        split at h
        · cases h
        · split at h
          · cases h
          · split at h
            · cases h
            · next few =>
              cases h
              exact ⟨not_not.mp ready, State.grantable_of_grantLength grantable, Nat.not_le.mp few⟩

/-- A demand under way: a run of changes that has left the mode alone and made no more grants than it may. -/
structure Demand.Underway (matched : Prop) (s : State) (most : Nat) (d : Demand) : Prop where
  run : Changes matched s d.state
  mode : d.state.mode = s.mode
  few : d.grants.length ≤ most

theorem Demand.Underway.step {most : Nat} {d : Demand} (h : d.Underway matched s most) (moving : s.mode.moving = true)
    (hMin : Option Nat) (st : Station) (j : JackIx) : (d.step hMin st most j).Underway matched s most := by
  unfold Demand.step
  split
  · next judged =>
    obtain ⟨ready, grantable, few⟩ := State.of_judge judged
    refine ⟨h.run.tail (.issue st j _ ready (h.mode ▸ moving) grantable), h.mode, ?_⟩
    rw [List.length_append]
    exact few
  · exact ⟨h.run, h.mode, h.few⟩

theorem State.demand_underway (moving : s.mode.moving = true) (st : Station) (scope : Option (Fin 8)) (most : Nat) :
    (s.demand st scope most).Underway matched s most :=
  List.foldlRecOn _ _ ⟨.refl, rfl, Nat.zero_le _⟩ fun _ h j _ => h.step moving _ st j

theorem demandBytes_length (reason : Withheld) (jack : Nat) (expiry : Option Nat) (grants : List (JackIx × Nat)) :
    (demandBytes reason jack expiry grants).length = 7 + 3 * grants.length := by
  have grant : ∀ g : JackIx × Nat, (be1 g.1.val ++ be2 g.2).length = 3 := fun _ => rfl
  simp only [demandBytes, List.length_append, be1_length, be4?_length, length_flatMap_const grant]
  omega

theorem mostGrants_le {count : Nat} (h : count ≤ 16) : mostGrants count ≤ 16 := by
  unfold mostGrants
  split <;> omega

theorem serveStrokeDemand_serves (p : Port) (payload : List Byte) :
    Serves matched s (serveStrokeDemand p payload s) := by
  unfold serveStrokeDemand
  split
  · exact .refuse ..
  · exact .refuse ..
  · next st scope _ _ =>
    split_ifs with many still held
    · exact .refuse ..
    · exact .read (by simp [demandBytes_length])
    · exact .read (by simp [demandBytes_length])
    · have underway := State.demand_underway (matched := matched) (s := s) (by simpa using still) st scope
        (mostGrants (u8At payload 1))
      have few := underway.few.trans (mostGrants_le (Nat.not_lt.mp many))
      refine ⟨underway.run.trans Changes.commit, ?_⟩
      dsimp only
      split <;> (rw [Reply.Fits, demandBytes_length]; omega)

/-! ### STROKE REPORT (R93 to R101) -/

theorem Changes.heightMoved (before : State) (j : JackIx) : Changes matched s (s.heightMoved before j) := by
  have holds : ∀ t : State, Changes matched t (t.placeExposed.crawlAfter before.hMin) :=
    fun t => Changes.placeExposed.trans (Changes.crawlAfter _)
  unfold State.heightMoved
  split
  · exact .refl
  · dsimp only
    split
    · exact (Change.retire _).run.trans (holds _)
    · exact holds _

theorem Changes.doneEntry {j : JackIx} (defined : (s.jack j).live.state ≠ .undefined) (travel : Nat) :
    Changes matched s (s.doneEntry j travel) :=
  .head (.ungrant j) <|
    (Changes.setLive (s := s.setGrant j none) defined (JackLive.stroked_state_ne _ _ _ _)
      (JackLive.stroked_inRange _ _ _)).trans <|
    .head (.count _ fun ⟨h1, h2, h3, h4, _, rest⟩ => ⟨h1, h2, h3, h4, sat32_le _, rest⟩) (Changes.heightMoved s j)

theorem Changes.lateEntry {j : JackIx} (defined : (s.jack j).live.state ≠ .undefined) (travel : Nat) :
    Changes matched s (s.lateEntry j travel) :=
  (Changes.setLive defined (JackLive.stroked_state_ne _ _ _ _) (JackLive.stroked_inRange _ _ _)).trans <|
    .head (.count _ fun ⟨h1, h2, _, h4, _, rest⟩ => ⟨h1, h2, sat32_le _, h4, sat32_le _, rest⟩)
      (Changes.heightMoved s j)

theorem Changes.ungrantedEntry {j : JackIx} (defined : (s.jack j).live.state ≠ .undefined) (travel : Nat) :
    Changes matched s (s.ungrantedEntry j travel) :=
  (Changes.setLive (v := { (s.jack j).live.travelled travel with ungranted := true }) defined defined
    (JackLive.travelled_inRange travel)).trans <|
    .head (.count _ fun ⟨h1, h2, h3, _, rest⟩ => ⟨h1, h2, h3, sat32_le _, rest⟩) <|
    (Changes.placePart _ _ _).trans (Changes.heightMoved s j)

/-- Only an entry for a jack that is not defined finds it so (R94). -/
theorem Jack.defined_of_classify {j : Jack} {st : Station} (h : j.classify st ≠ .undefined) :
    j.live.state ≠ .undefined := fun e => h (by simp [Jack.classify, e])

theorem Changes.reportEntry (st : Station) (jack travel : Nat) :
    Changes matched s (s.reportEntry st jack travel).1 := by
  unfold State.reportEntry
  split
  · exact .refl
  · next j _ =>
    have defined : ∀ {c}, (s.jack j).classify st = c → c ≠ .undefined → (s.jack j).live.state ≠ .undefined :=
      fun e ne => Jack.defined_of_classify (e ▸ ne)
    dsimp only
    split
    · exact Changes.settle
    · exact Changes.settle
    · exact Changes.settle
    · next e => exact (Changes.doneEntry (defined e nofun) travel).trans Changes.settle
    · next e => exact (Changes.lateEntry (defined e nofun) travel).trans Changes.settle
    · next e =>
      split
      · exact Changes.settle
      · exact (Changes.ungrantedEntry (defined e nofun) travel).trans Changes.settle

theorem reportEntry_length (st : Station) (jack travel : Nat) : (s.reportEntry st jack travel).2.length = 3 := by
  unfold State.reportEntry
  split
  · rfl
  · dsimp only
    split
    all_goals first | rfl | (split <;> rfl)

theorem Changes.report (st : Station) (entries : List (Nat × Nat)) : Changes matched s (s.report st entries).1 := by
  induction entries generalizing s with
  | nil => exact .refl
  | cons e rest ih => exact (Changes.reportEntry st e.1 e.2).trans ih

theorem report_length (st : Station) (entries : List (Nat × Nat)) :
    (s.report st entries).2.length = 3 * entries.length := by
  induction entries generalizing s with
  | nil => rfl
  | cons e rest ih =>
    simp only [State.report, List.length_append, reportEntry_length, ih, List.length_cons]
    omega

theorem reportEntries_length_le : ∀ payload : List Byte, 3 * (reportEntries payload).length ≤ payload.length
  | _ :: _ :: _ :: rest => by
    have := reportEntries_length_le rest
    simp only [reportEntries, List.length_cons]
    omega
  | [] => by simp [reportEntries]
  | [_] => by simp [reportEntries]
  | [_, _] => by simp [reportEntries]

theorem serveStrokeReport_serves (p : Port) {payload : List Byte} (short : payload.length ≤ 48) :
    Serves matched s (serveStrokeReport p payload s) := by
  unfold serveStrokeReport
  split
  · exact .refuse ..
  · have entries := reportEntries_length_le payload
    refine ⟨(Changes.report _ _).trans Changes.commit, ?_⟩
    simp only [Reply.Fits, List.length_append, be1_length, report_length]
    omega

/-! ### STROKE CANCEL and expiry (R103, R104) -/

/-- While grants match the jacks, a jack that a grant names is defined. -/
theorem State.GrantsMatch.defined {j : JackIx} (h : s.GrantsMatch) (g : (s.grant? j).isSome = true) :
    (s.jack j).live.state ≠ .undefined := by
  rw [(h j).1.mpr g]
  decide

/-- Taking the grant of a jack away with its GRANTED state keeps the two in step (R81). -/
theorem State.GrantsMatch.release (h : s.GrantsMatch) (j : JackIx) {v : JackLive} (left : v.state ≠ .granted) :
    ((s.setGrant j none).setLive j v).GrantsMatch := by
  intro i
  have grant : ((s.setGrant j none).setLive j v).grant? i = if i = j then none else s.grant? i :=
      s.grant?_setGrant i j none
  have jack : ((s.setGrant j none).setLive j v).jack i = if i = j then { s.jack j with live := v } else s.jack i :=
    (s.setGrant j none).jack_setLive i j v
  rw [grant, jack]
  by_cases e : i = j
  · simp [e, left]
  · simpa [e] using h i

theorem State.cancelEntry_cases (st : Station) (jack : Nat) :
    (s.cancelEntry st jack).2.length = 3 ∧
    ((s.cancelEntry st jack).1 = s ∨
      ∃ j, (s.grant? j).isSome = true ∧
        (s.cancelEntry st jack).1 = (s.setGrant j none).setLive j { (s.jack j).live with state := .ready }) := by
  unfold State.cancelEntry
  split
  · exact ⟨rfl, .inl rfl⟩
  · next j _ =>
    split
    · next held =>
      refine ⟨rfl, .inr ⟨j, ?_, rfl⟩⟩
      cases hg : s.grant? j with
      | none => simp [hg] at held
      | some g => rfl
    · exact ⟨rfl, .inl rfl⟩

/-- A grant ends and its jack takes another state than GRANTED (R103, R104). -/
theorem Changes.endGrant (granted : matched → s.GrantsMatch) {j : JackIx} (grant : (s.grant? j).isSome = true)
    {v : JackLive} (stays : v.state ≠ .undefined) (range : (s.jack j).live.InRange → v.InRange) :
    Changes matched s ((s.setGrant j none).setLive j v) :=
  .head (.ungrant j) <| Change.run <|
        .live (s := s.setGrant j none) j v (fun m => (granted m).defined grant) stays range

theorem Changes.cancel (granted : matched → s.GrantsMatch) (st : Station) (jacks : List Byte) :
    Changes matched s (s.cancel st jacks).1 := by
  induction jacks generalizing s with
  | nil => exact .refl
  | cons b rest ih =>
    show Changes matched s ((s.cancelEntry st b.toNat).1.cancel st rest).1
    rcases (s.cancelEntry_cases st b.toNat).2 with e | ⟨j, grant, e⟩
    · rw [e]
      exact ih granted
    · rw [e]
      refine (Changes.endGrant (v := { (s.jack j).live with state := .ready }) granted grant ?_ id).trans
        (ih fun m => (granted m).release j ?_)
      all_goals exact nofun

theorem cancel_length (st : Station) (jacks : List Byte) : (s.cancel st jacks).2.length = 3 * jacks.length := by
  induction jacks generalizing s with
  | nil => rfl
  | cons b rest ih =>
    simp only [State.cancel, List.length_append, (s.cancelEntry_cases st b.toNat).1, ih, List.length_cons]
    omega

theorem serveStrokeCancel_serves (granted : matched → s.GrantsMatch) (p : Port) {payload : List Byte}
    (short : payload.length ≤ 16) : Serves matched s (serveStrokeCancel p payload s) := by
  unfold serveStrokeCancel
  split
  · exact .refuse ..
  · refine ⟨(Changes.cancel granted _ _).trans Changes.commit, ?_⟩
    simp only [Reply.Fits, List.length_append, be1_length, cancel_length]
    omega

theorem Changes.expire (granted : matched → s.GrantsMatch) {j : JackIx} (due : s.grantDue j = true) :
    Changes matched s (s.expire j) := by
  have grant : (s.grant? j).isSome = true := by
    cases h : s.grant? j with
    | none => simp [State.grantDue, h] at due
    | some g => rfl
  refine (Changes.endGrant granted grant (v := { (s.jack j).live with
    state := .stalled, stallCount := sat16 ((s.jack j).live.stallCount + 1) }) (by simp) ?_).trans <|
    .head (.count _ fun ⟨h1, _, rest⟩ => ⟨h1, sat32_le _, rest⟩) Changes.commit
  exact fun ⟨h1, h2, h3, h4, h5, h6, _⟩ => ⟨h1, h2, h3, h4, h5, h6, sat16_le _⟩

/-! ### STATION VIEW (R105) -/

theorem viewBytes_length_le (st : Station) (page : Nat) : (s.viewBytes st page).length ≤ 56 := by
  have grant : ∀ g : JackIx × Grant, (grantBytes g).length = 7 := fun _ => rfl
  simp [State.viewBytes, length_flatMap_const grant]
  omega

theorem serveStationView_serves (p : Port) (payload : List Byte) :
    Serves matched s (serveStationView p payload s) := by
  unfold serveStationView
  split
  · exact .refuse ..
  · split
    · exact .refuse ..
    · exact .read (viewBytes_length_le ..)

end Sys2Proof.Machine
end

section
/-! SUPPORT. The store's ends, start-up, the lines and the bytes of a port as runs of changes, and every step as one. -/

namespace Sys2Proof.Machine

variable {matched : Prop} {s t u : State}

/-! ### The store (R168, R169) -/

theorem Changes.endSave {c : Configuration} {serial : Nat} (saving : s.storeOp = some (.save c serial)) (good : Bool) :
    Changes matched s (s.endSave c serial good) := by
  unfold State.endSave
  dsimp only
  split
  · refine (Change.saved c serial saving).run.trans <| .head (.storeOp none nofun) <|
      (Changes.outer (t := { s with storeOp := none, storeBad := !good, store := Store.holding c }) rfl).trans <|
      Changes.respond _ _ (by simp [Reply.Fits])
  · exact .head (.storeOp none nofun) <|
      (Changes.outer (t := { s with storeOp := none, storeBad := !good, store := s.store.spoil }) rfl).trans <|
      Changes.respond _ _ trivial

theorem State.refreshAll_setSpeeds (speeds : Vector Speed 4) :
    (s.setSpeeds speeds).refreshAll = s.refreshAll.setSpeeds speeds := by
  unfold State.setSpeeds
  generalize Port.all = ps
  induction ps generalizing s with
  | nil => rfl
  | cons p ps ih => exact ih

theorem Changes.replaceConfiguration {c : Configuration} (offered : s.Offers c) :
    Changes matched s (s.replaceConfiguration c).refreshAll := by
  have records : s.replaceConfiguration c = (s.replaceRecords c).setSpeeds c.speeds := rfl
  rw [records, State.refreshAll_setSpeeds]
  exact .head (.replace c offered) (Changes.setSpeeds _)

theorem Changes.adopt {c : Configuration} (offered : s.Offers c) : Changes matched s (s.adopt c) :=
  (Changes.replaceConfiguration offered).trans <| (Changes.retireSectors _).trans <| Changes.placeExposed.trans <|
    Changes.deriveMode.trans Changes.commit

theorem adoptBytes_fits : Reply.Fits (.accept s.adoptBytes) := by simp [Reply.Fits, State.adoptBytes]

theorem Changes.endLoad (storeIntact : Bool) : Changes matched s (s.endLoad storeIntact) := by
  unfold State.endLoad
  split
  · exact .head (.storeOp none nofun) <|
      (Changes.outer (t := { s with storeOp := none, storeBad := false }) rfl).trans <|
      (Changes.adopt (.inl rfl)).trans (Changes.respond _ _ adoptBytes_fits)
  · refine .head (.storeOp none nofun) <|
      (Changes.outer (t := { s with
      storeOp := none, storeBad := true, store := s.store.found storeIntact }) ?_).trans <|
      Changes.respond _ _ trivial
    cases storeIntact <;> rfl

theorem Changes.endFactory : Changes matched s s.endFactory :=
  .head (.storeOp none nofun) <| (Changes.adopt (.inr rfl)).trans (Changes.respond _ _ adoptBytes_fits)

theorem Changes.halt (ph : Phase) : Changes matched s (s.halt ph) := by
  rcases s.abortStore_cases with e | e <;> unfold State.halt <;> rw [e] <;>
    exact .head (.storeOp none nofun) <| (Changes.outer rfl).trans Changes.settle

/-! ### Start-up (R170 to R172) -/

theorem Changes.rebuild {c : Configuration} (offered : s.Offers c) : Changes matched s (s.rebuild c) :=
  (Change.rebuild c offered).run.trans (Changes.retireSectors _)

theorem Changes.stamp : Changes matched s { s with retained := { s.retained with stamp := s.clock } } :=
  (Change.memory s.clock s.clock s.retained.runMark (Nat.le_max_right ..) (Nat.le_max_left ..)).run

theorem Changes.creditOutage : Changes matched s s.creditOutage :=
  (Changes.credit _).trans <| Changes.stamp.trans Changes.placeExposed

theorem Changes.startUpFound (storeGood retainedGood : Bool) (battery : Nat) :
    Changes matched s (s.startUpFound storeGood retainedGood battery) := by
  unfold State.startUpFound
  dsimp only
  generalize hc : (if storeGood then s.store.contents else Configuration.factory) = c
  have offered : s.Offers c := by
    rw [← hc]
    cases storeGood
    · exact .inr rfl
    · exact .inl rfl
  have found : Changes matched s { s with storeBad := !storeGood, retainLost := !retainedGood } := Changes.outer rfl
  have loaded : ∀ s1 : State, s1.Offers c → Changes matched s1
      (((if storeGood && retainedGood then (s1.rebuild c).creditOutage else s1.loseDeck c).deriveMode.startBlocks c
        battery).rewrite) := by
    intro s1 offered
    refine Relation.ReflTransGen.trans ?_ <|
      Changes.deriveMode.trans <| (Change.startBlocks c battery).run.trans Changes.rewrite
    split
    · exact (Changes.rebuild offered).trans Changes.creditOutage
    · exact (Change.lose c offered).run
  exact found.trans (loaded _ offered)

theorem Changes.startUp (retainedBad retainedIntact storeIntact : Bool) (battery : Nat) :
    Changes matched s (s.startUp retainedBad retainedIntact storeIntact battery) := by
  refine (Changes.outer (t := { s with store := s.store.found storeIntact }) ?_).trans (Changes.startUpFound ..)
  cases storeIntact <;> rfl

theorem Changes.matureDeck : Changes matched s s.matureDeck :=
  (Changes.interval _).trans <| Changes.stamp.trans Changes.rewrite

/-! ### The lines (R124, R125, R145, R164) -/

theorem Changes.decideLine : Changes matched s s.decideLine := by
  have decided : Changes matched s
      { s with holdTimer := false, holdFilter := if s.holdLow then .asserted else .negated } := Changes.outer rfl
  unfold State.decideLine
  dsimp only
  split
  · exact decided
  · exact decided.trans (Changes.dropReason _)
  · exact decided.trans (Changes.placePart _ _ _)
  · exact decided.trans (Changes.placePart _ _ _)
  · exact decided
  · exact decided

theorem Changes.afterConsole : Changes matched s s.afterConsole := by
  unfold State.afterConsole
  split
  · exact .refl
  · exact Changes.halt _
  · exact Changes.halt _

theorem Changes.answerLeft (p : Port) : Changes matched s (s.answerLeft p) := by
  unfold State.answerLeft
  split
  · split
    · exact (Changes.reopen p).trans Changes.afterConsole
    · exact Changes.reopen p
  all_goals exact .refl

/-! ### Frames and bytes (R143 to R149) -/

/-- Every request's serving rule is a run of changes with a reply that fits its frame. -/
theorem serveRequest_serves (granted : matched → s.GrantsMatch) (r : Request) (p : Port) (item : Item)
    {payload : List Byte} (seen : Findings) (length : r.lengthOk payload.length = true) :
    Serves matched s (serveRequest r p item payload seen s) := by
  cases r with
  | deckSummary => exact serveDeckSummary_serves
  | jackRead => exact serveJackRead_serves item
  | sectorRead => exact serveSectorRead_serves item
  | layerRead => exact serveLayerRead_serves item payload
  | probeRead => exact serveProbeRead_serves item
  | planRead => exact servePlanRead_serves item
  | identity => exact serveIdentity_serves p
  | strokeDemand => exact serveStrokeDemand_serves p payload
  | strokeReport => exact serveStrokeReport_serves p (by simp [Request.lengthOk] at length; omega)
  | strokeCancel => exact serveStrokeCancel_serves granted p (by simp [Request.lengthOk] at length; omega)
  | stationView => exact serveStationView_serves p payload
  | layerPlaced => exact serveLayerPlaced_serves item payload
  | feedAdvice => exact serveFeedAdvice_serves
  | layerWithdraw => exact serveLayerWithdraw_serves item
  | holdPlace => exact serveHoldPlace_serves p payload
  | holdRelease => exact serveHoldRelease_serves p payload
  | holdList => exact serveHoldList_serves payload
  | modeSet => exact serveModeSet_serves payload
  | survey => exact serveSurvey_serves item payload
  | rodExtend => exact serveRodExtend_serves item payload
  | jackSet => exact serveJackSet_serves item payload
  | jackDefine => exact serveJackDefineAny_serves item payload
  | sectorDefine => exact serveSectorDefineAny_serves item payload
  | sectorBase => exact serveSectorBase_serves item payload
  | planStage => exact servePlanStage_serves item payload
  | planApply => exact servePlanApply_serves
  | silence => exact serveSilence_serves
  | configSave => exact serveConfigSave_serves
  | configLoad => exact serveConfigLoad_serves
  | configFactory => exact serveConfigFactory_serves
  | clearDeck => exact serveClearDeck_serves
  | restart => exact serveRestart_serves
  | diagnose => exact serveDiagnose_serves seen
  | counters => exact serveCounters_serves payload
  | portSet => exact servePortSet_serves item payload

/-- Counting a good frame leaves the jacks and their grants alone. -/
theorem State.GrantsMatch.goodFrame (h : s.GrantsMatch) (p : Port) : (s.goodFrame p).GrantsMatch := by
  rw [s.goodFrame_eq p]
  exact h

theorem Changes.takeFrame (granted : matched → s.GrantsMatch) (p : Port) (code : Byte) (item : Item)
    (payload : List Byte) (seen : Findings) : Changes matched s (s.takeFrame p code item payload seen) := by
  unfold State.takeFrame
  split
  · exact Changes.take fun _ length => serveRequest_serves (fun m => (granted m).goodFrame p) _ p item seen length
  · exact Changes.takeUnknown p code

theorem Changes.hear (granted : matched → s.GrantsMatch) (p : Port) (b : Byte) (seen : Findings) :
    Changes matched s (s.hear p b seen) := by
  unfold State.hear
  split
  · split
    · exact Changes.setReceiver p fun _ => nofun
    · exact .refl
  · unfold State.gather
    split
    · exact Changes.setReceiver p fun _ => nofun
    · exact (Changes.lengthDiscard p).trans Changes.settle
    · refine (Changes.onFrame ?_).trans Changes.settle
      split
      · exact Changes.takeFrame (s := s.setReceiver p .listening) granted ..
      · exact Changes.checkFail ..
  · split
    · exact Changes.setReceiver p fun _ => nofun
    · exact .refl
  · unfold State.gatherServing
    split
    · exact Changes.setReceiver p fun _ => nofun
    · exact (Changes.lengthDiscard p).trans Changes.settle
    · exact (Changes.overrunDiscard p).trans Changes.settle
  · exact .refl

end Sys2Proof.Machine
end

section
/-! SUPPORT. Every command, and so every step, is a run of changes. -/

namespace Sys2Proof.Machine

variable {matched : Prop} {s t u : State}

/-- A request row is a run of changes when its serving rule is. -/
theorem request_changes {r : Request} {p : Port} {n : Nat} {serve : State → State × Reply}
    (h : request r p n serve s = .next t) (granted : matched → s.GrantsMatch)
    (served : ∀ u : State, (matched → u.GrantsMatch) → r.lengthOk n = true → Serves matched u (serve u)) :
    Changes matched s t :=
  whenRunning_changes h <| Changes.onFrame <| Changes.take fun _ length =>
    served _ (fun m => State.GrantsMatch.goodFrame (s := s.setReceiver p .listening) (granted m) p) length

/-! ### The events that are no frames -/

theorem execConfigSaveEnd_changes {good : Bool} (h : execConfigSaveEnd good s = .next t) : Changes matched s t := by
  refine whenRunning_changes h ?_
  split
  · next saving => exact Changes.endSave saving good
  all_goals exact .refl

theorem execConfigLoadEnd_changes {intact : Bool} (h : execConfigLoadEnd intact s = .next t) :
    Changes matched s t := by
  refine whenRunning_changes h ?_
  split
  · exact Changes.endLoad intact
  all_goals exact .refl

theorem execConfigFactoryEnd_changes (h : execConfigFactoryEnd s = .next t) : Changes matched s t := by
  refine whenRunning_changes h ?_
  split
  · exact Changes.endFactory
  all_goals exact .refl

theorem execFrameCheckFail_changes {p : Port} {code : Byte} {item : Item} {payload : List Byte}
    (h : execFrameCheckFail p code item payload s = .next t) : Changes matched s t :=
  whenRunning_changes h (Changes.onFrame (Changes.checkFail ..))

theorem execFrameLengthDiscard_changes {p : Port} (h : execFrameLengthDiscard p s = .next t) : Changes matched s t :=
  whenRunning_changes h (Changes.lengthDiscard p)

theorem execFrameOverrunDiscard_changes {p : Port} (h : execFrameOverrunDiscard p s = .next t) :
    Changes matched s t := by
  refine whenRunning_changes h ?_
  split
  · exact Changes.overrunDiscard p
  all_goals exact .refl

theorem execGapTimerExpiry_changes {p : Port} (h : execGapTimerExpiry p s = .next t) : Changes matched s t := by
  refine whenRunning_changes h ?_
  split
  · exact Changes.gapDiscard p fun _ => nofun
  · exact Changes.gapDiscard p fun _ => nofun
  all_goals exact .refl

theorem execAnswerSent_changes {p : Port} (h : execAnswerSent p s = .next t) : Changes matched s t :=
  whenRunning_changes h (Changes.answerLeft p)

theorem execAliveTimerExpiry_changes {p : Port} (h : execAliveTimerExpiry p s = .next t) : Changes matched s t := by
  refine whenRunning_changes h ?_
  cases p <;> exact Changes.outer rfl

theorem execGrantExpiry_changes {j : JackIx} (h : execGrantExpiry j s = .next t) (granted : matched → s.GrantsMatch) :
    Changes matched s t := by
  refine whenRunning_changes h ?_
  split
  · next due => exact Changes.expire granted due
  · exact .refl

theorem execProbeSampleExpiry_changes {samples : Vector Int 12} {battery : Nat}
    (h : execProbeSampleExpiry samples battery s = .next t) : Changes matched s t := by
  refine whenRunning_changes h ?_
  split
  · exact (Change.sample samples).run.trans (Changes.outer rfl)
  · exact .refl

theorem execMaturityIntervalExpiry_changes (h : execMaturityIntervalExpiry s = .next t) : Changes matched s t := by
  refine whenRunning_changes h ?_
  split
  · exact Changes.matureDeck
  · exact .refl

theorem execHoldLineChange_changes {low : Bool} (h : execHoldLineChange low s = .next t) : Changes matched s t := by
  cases h
  dsimp only
  split <;> exact Changes.outer rfl

theorem execHoldFilterExpiry_changes (h : execHoldFilterExpiry s = .next t) : Changes matched s t := by
  refine whenRunning_changes h ?_
  split
  · exact Changes.decideLine
  · exact .refl

/-- The counter and the run mark move with the check (R165, R166). -/
theorem Changes.recheck {counter : Nat} (mark : Bool) (hcounter : counter ≤ max s.retained.counter clockTop) :
    Changes matched s { s with
      retained := s.retained.recheck { s.retained with counter := counter, runMark := mark } } :=
  (Change.memory s.retained.stamp counter mark (Nat.le_max_left ..) hcounter).run.trans (Changes.outer rfl)

theorem execDeckClockAdvance_changes (h : execDeckClockAdvance s = .next t) : Changes matched s t := by
  cases h
  exact Changes.recheck s.retained.runMark ((Nat.min_le_right ..).trans (Nat.le_max_right ..))

theorem execRunMarkBreak_changes (h : execRunMarkBreak s = .next t) : Changes matched s t := by
  cases h
  split
  · exact Changes.recheck false (Nat.le_max_left ..)
  · exact .refl

theorem execPowerOn_changes (h : execPowerOn s = .next t) : Changes matched s t := by
  unfold execPowerOn at h
  split at h
  · cases h
    split <;> exact Changes.halt _
  all_goals
    cases h
    exact .refl

theorem execPowerFail_changes (h : execPowerFail s = .next t) : Changes matched s t := by
  cases h
  exact Changes.halt _

theorem execResetLineLow_changes (h : execResetLineLow s = .next t) : Changes matched s t := by
  have low : Changes matched s { s with resetLow := true } := Changes.outer rfl
  dsimp only [execResetLineLow] at h
  split at h
  · cases h
    exact low
  all_goals
    cases h
    exact low.trans (Changes.halt _)

theorem execResetLineHigh_changes (h : execResetLineHigh s = .next t) : Changes matched s t := by
  have high : Changes matched s { s with resetLow := false } := Changes.outer rfl
  dsimp only [execResetLineHigh] at h
  split at h
  · cases h
    exact high.trans (Changes.halt _)
  all_goals
    cases h
    exact high

theorem execStartUpSequence_changes {retainedIntact storeIntact : Bool} {battery : Nat}
    (h : execStartUpSequence retainedIntact storeIntact battery s = .next t) : Changes matched s t := by
  unfold execStartUpSequence at h
  split at h
  · cases h
    exact (Changes.startUp ..).trans Changes.settle
  all_goals
    cases h
    exact .refl

theorem execByteReceived_changes {p : Port} {b : Byte} {seen : Findings} (h : execByteReceived p b seen s = .next t)
    (granted : matched → s.GrantsMatch) : Changes matched s t := by
  cases h
  split
  · exact Changes.hear granted p b seen
  · exact .refl

theorem execUnknownRequestCode_changes {p : Port} {code : Byte} {item : Item} {payload : List Byte}
    (h : execUnknownRequestCode p code item payload s = .next t) : Changes matched s t := by
  unfold execUnknownRequestCode at h
  split at h
  · cases h
    exact .refl
  · exact whenRunning_changes h (Changes.onFrame (Changes.takeUnknown ..))

/-! ### Commands and steps -/

theorem exec_changes {c : Instr} (h : exec c s = .next t) (granted : matched → s.GrantsMatch) :
    Changes matched s t := by
  cases c with
  | deckSummary p item payload => exact request_changes h granted fun _ _ _ => serveDeckSummary_serves
  | jackRead p item payload => exact request_changes h granted fun _ _ _ => serveJackRead_serves item
  | sectorRead p item payload => exact request_changes h granted fun _ _ _ => serveSectorRead_serves item
  | layerRead p item payload => exact request_changes h granted fun _ _ _ => serveLayerRead_serves item payload
  | probeRead p item payload => exact request_changes h granted fun _ _ _ => serveProbeRead_serves item
  | planRead p item payload => exact request_changes h granted fun _ _ _ => servePlanRead_serves item
  | planReadState p payload => exact request_changes h granted fun _ _ _ => servePlanReadState_serves
  | identity p item payload => exact request_changes h granted fun _ _ _ => serveIdentity_serves p
  | strokeDemand p item payload => exact request_changes h granted fun _ _ _ => serveStrokeDemand_serves p payload
  | strokeReport p item payload =>
    exact request_changes h granted fun _ _ length =>
      serveStrokeReport_serves p (by simp [Request.lengthOk] at length; omega)
  | strokeCancel p item payload =>
    exact request_changes h granted fun _ granted length =>
      serveStrokeCancel_serves granted p (by simp [Request.lengthOk] at length; omega)
  | stationView p item payload => exact request_changes h granted fun _ _ _ => serveStationView_serves p payload
  | layerPlaced p item payload => exact request_changes h granted fun _ _ _ => serveLayerPlaced_serves item payload
  | feedAdvice p item payload => exact request_changes h granted fun _ _ _ => serveFeedAdvice_serves
  | layerWithdraw p item payload => exact request_changes h granted fun _ _ _ => serveLayerWithdraw_serves item
  | holdPlace p item payload => exact request_changes h granted fun _ _ _ => serveHoldPlace_serves p payload
  | holdRelease p item payload => exact request_changes h granted fun _ _ _ => serveHoldRelease_serves p payload
  | holdList p item payload => exact request_changes h granted fun _ _ _ => serveHoldList_serves payload
  | modeSet p item payload => exact request_changes h granted fun _ _ _ => serveModeSet_serves payload
  | survey p item payload => exact request_changes h granted fun _ _ _ => serveSurvey_serves item payload
  | rodExtend p item payload => exact request_changes h granted fun _ _ _ => serveRodExtend_serves item payload
  | jackSetExclude p item tail => exact request_changes h granted fun _ _ _ => serveJackExclude_serves item
  | jackSetInclude p item tail => exact request_changes h granted fun _ _ _ => serveJackInclude_serves item
  | jackSetClear p item tail => exact request_changes h granted fun _ _ _ => serveJackClear_serves item
  | jackDefine p item tail => exact request_changes h granted fun _ _ _ => serveJackDefine_serves item _
  | jackUndefine p item tail => exact request_changes h granted fun _ _ _ => serveJackUndefine_serves item
  | sectorDefine p item tail => exact request_changes h granted fun _ _ _ => serveSectorDefine_serves item _
  | sectorUndefine p item tail => exact request_changes h granted fun _ _ _ => serveSectorUndefine_serves item
  | sectorBase p item payload => exact request_changes h granted fun _ _ _ => serveSectorBase_serves item payload
  | planStage p item payload => exact request_changes h granted fun _ _ _ => servePlanStage_serves item payload
  | planApply p item payload => exact request_changes h granted fun _ _ _ => servePlanApply_serves
  | silence p item payload => exact request_changes h granted fun _ _ _ => serveSilence_serves
  | configSave p item payload => exact request_changes h granted fun _ _ _ => serveConfigSave_serves
  | configSaveEnd good => exact execConfigSaveEnd_changes h
  | configLoad p item payload => exact request_changes h granted fun _ _ _ => serveConfigLoad_serves
  | configLoadEnd intact => exact execConfigLoadEnd_changes h
  | configFactory p item payload => exact request_changes h granted fun _ _ _ => serveConfigFactory_serves
  | configFactoryEnd => exact execConfigFactoryEnd_changes h
  | clearDeck p item payload => exact request_changes h granted fun _ _ _ => serveClearDeck_serves
  | restart p item payload => exact request_changes h granted fun _ _ _ => serveRestart_serves
  | diagnose p item payload seen => exact request_changes h granted fun _ _ _ => serveDiagnose_serves seen
  | counters p item payload => exact request_changes h granted fun _ _ _ => serveCounters_serves payload
  | countersReadClear p item tail => exact request_changes h granted fun _ _ _ => serveCountersReadClear_serves
  | portSet p item payload => exact request_changes h granted fun _ _ _ => servePortSet_serves item payload
  | frameCheckFail p code item payload => exact execFrameCheckFail_changes h
  | frameLengthDiscard p => exact execFrameLengthDiscard_changes h
  | frameOverrunDiscard p => exact execFrameOverrunDiscard_changes h
  | gapTimerExpiry p => exact execGapTimerExpiry_changes h
  | answerSent p => exact execAnswerSent_changes h
  | aliveTimerExpiry p => exact execAliveTimerExpiry_changes h
  | grantExpiry j => exact execGrantExpiry_changes h granted
  | probeSampleExpiry samples battery => exact execProbeSampleExpiry_changes h
  | maturityIntervalExpiry => exact execMaturityIntervalExpiry_changes h
  | holdLineChange low => exact execHoldLineChange_changes h
  | holdFilterExpiry => exact execHoldFilterExpiry_changes h
  | deckClockAdvance => exact execDeckClockAdvance_changes h
  | powerOn => exact execPowerOn_changes h
  | powerFail => exact execPowerFail_changes h
  | resetLineLow => exact execResetLineLow_changes h
  | resetLineHigh => exact execResetLineHigh_changes h
  | runMarkBreak => exact execRunMarkBreak_changes h
  | startUpSequence retainedIntact storeIntact battery => exact execStartUpSequence_changes h
  | byteReceived p b seen => exact execByteReceived_changes h granted
  | unknownRequestCode p code item payload => exact execUnknownRequestCode_changes (item := item) h

/-- Every step is a run of changes. -/
theorem step_changes (h : step s = .next t) : Changes s.GrantsMatch s t := by
  unfold step at h
  split at h
  · cases h
    exact Changes.outer rfl
  · next c rest waiting =>
    have front : Changes s.GrantsMatch s { s with pending := rest } := Changes.outer rfl
    exact front.trans (exec_changes h id)

end Sys2Proof.Machine
end

section
/-! SUPPORT. The layer pool and the chains: what each change leaves of them (R22, R25, R27). -/

namespace Sys2Proof.Machine

variable {matched : Prop} {s t u : State}

/-! ### The records that a configuration gives -/

section Records

variable (s : State) (c : Configuration) (j : JackIx) (k : SectorIx)

/-- The deck as the retained-loss path finds it: a configuration's definitions and nothing else (R172). -/
def State.forget : State :=
  { s with
    jacks := Vector.ofFn fun j => Jack.undefined.reconfigure c.jacks[j]
    sectors := Vector.ofFn fun k => Sector.undefined.reconfigure c.sectors[k]
    holds := []
    planSerial := 0
    active := c.plan }

theorem State.loseDeck_eq : s.loseDeck c = (s.forget c).clearLive := rfl

theorem State.forget_jack : (s.forget c).jack j = Jack.undefined.reconfigure c.jacks[j] := by
  simp [State.forget, State.jack]

theorem State.forget_sector : (s.forget c).sector k = Sector.undefined.reconfigure c.sectors[k] := by
  simp [State.forget, State.sector]

theorem State.replaceRecords_jack : (s.replaceRecords c).jack j = (s.jack j).reconfigure c.jacks[j] := by
  simp [State.replaceRecords, State.jack]

theorem State.replaceRecords_sector : (s.replaceRecords c).sector k = (s.sector k).reconfigure c.sectors[k] := by
  simp [State.replaceRecords, State.sector]

theorem State.rebuildRecords_jack : (s.rebuildRecords c).jack j = rebuildJack s.retained.jacks[j] c.jacks[j] := by
  simp [State.rebuildRecords, State.jack]

theorem State.rebuildRecords_sector :
    (s.rebuildRecords c).sector k = rebuildSector s.retained.sectors[k] c.sectors[k] := by
  simp [State.rebuildRecords, State.sector]

theorem State.clearLive_jack : s.clearLive.jack j = (s.jack j).clear := by simp [State.clearLive, State.jack]

theorem State.clearLive_sector : s.clearLive.sector k = (s.sector k).clear := by simp [State.clearLive, State.sector]

theorem State.refreshAll_sector : s.refreshAll.sector k = { s.sector k with live := { (s.sector k).live with
    chain := (s.sector k).live.chain.map (Layer.refresh s.active) } } := by
  simp [State.refreshAll, State.sector]

end Records

/-! ### Layers and what they stand on -/

theorem fillOver_nil (base : Nat) : fillOver base [] = base := rfl

theorem fillOver_cons (base : Nat) (l : Layer) (rest : List Layer) :
    fillOver base (l :: rest) = fillOver l.top rest := by
  cases rest with
  | nil => rfl
  | cons m rest => simp [fillOver, List.getLast?_eq_getLast_of_ne_nil]

/-- A chain stands on a base when its lower part does and its upper part stands on top of that. -/
theorem standsOn_append (base : Nat) (below above : List Layer) :
    standsOn base (below ++ above) = (standsOn base below && standsOn (fillOver base below) above) := by
  induction below generalizing base with
  | nil => rfl
  | cons l rest ih => simp only [List.cons_append, standsOn, ih, fillOver_cons, Bool.and_assoc]

theorem fillOver_le {base : Nat} {chain : List Layer} (low : base ≤ 2000000) (stands : standsOn base chain = true) :
    fillOver base chain ≤ 2000000 := by
  induction chain generalizing base with
  | nil => exact low
  | cons l rest ih =>
    simp only [standsOn, Bool.and_eq_true, decide_eq_true_eq] at stands
    rw [fillOver_cons]
    exact ih stands.1.2 stands.2

/-- A change of layers that moves no base and no top keeps what a chain stands on. -/
theorem standsOn_map {f : Layer → Layer} (base : ∀ l, (f l).base = l.base) (top : ∀ l, (f l).top = l.top) (b : Nat)
    (chain : List Layer) : standsOn b (chain.map f) = standsOn b chain := by
  induction chain generalizing b with
  | nil => rfl
  | cons l rest ih => simp only [List.map_cons, standsOn, base, top, ih]

/-! ### The sectors of the live deck and of retained memory alike -/

/-- A sector's chain is no longer than 16, carries its sector, is empty while the sector is not defined, and stands on
its hardened top. -/
structure RetainedSector.Sound (k : SectorIx) (r : RetainedSector) : Prop where
  short : r.live.chain.length ≤ 16
  own : ∀ l ∈ r.live.chain, l.sector = k
  undefined : r.defined = false → r.live.chain = []
  stands : r.live.Stands

/-- How often a slot stands in a sector's chain. -/
def RetainedSector.holds (slot : Slot) (r : RetainedSector) : Nat := (r.live.chain.map Layer.slot).count slot

/-- Every slot of the pool has one place, and every sector is sound. -/
structure PoolSound (free : List Slot) (sectors : SectorIx → RetainedSector) : Prop where
  once : ∀ slot, free.count slot + ∑ k, (sectors k).holds slot = 1
  sound : ∀ k, (sectors k).Sound k

/-- What retained memory keeps of a sector. -/
def State.kept (s : State) (k : SectorIx) : RetainedSector := ⟨(s.sector k).defined, (s.sector k).live⟩

theorem count_chainSlots (v : Vector RetainedSector 24) (slot : Slot) :
    (chainSlots (v.toList.map RetainedSector.live)).count slot = ∑ k : SectorIx, v[k].holds slot := by
  have table : v.toList = List.ofFn fun k : SectorIx => v[k] :=
    List.ext_getElem (by rw [Vector.length_toList, List.length_ofFn]) fun i _ _ => by
      rw [List.getElem_ofFn, Vector.getElem_toList, Fin.getElem_fin]
  rw [chainSlots, List.count_flatMap, List.map_map, table, List.map_ofFn, List.sum_ofFn]
  rfl

theorem poolSound_iff (free : List Slot) (v : Vector RetainedSector 24) :
    PoolSound free (fun k => v[k]) ↔
      PoolWhole free (v.toList.map RetainedSector.live) ∧ ChainsOk v ∧ ∀ k : SectorIx, v[k].live.Stands := by
  simp only [PoolWhole, List.count_append, count_chainSlots]
  exact ⟨fun ⟨once, sound⟩ => ⟨once, fun k => ⟨(sound k).short, (sound k).own, (sound k).undefined⟩,
      fun k => (sound k).stands⟩,
    fun ⟨once, chains, stands⟩ => ⟨once, fun k => ⟨(chains k).1, (chains k).2.1, (chains k).2.2, stands k⟩⟩⟩

/-- The pool and the chains of the live deck and of its retained copy. -/
structure State.PoolsSound (s : State) : Prop where
  live : PoolSound s.freeList s.kept
  retained : PoolSound s.retained.freeList fun k => s.retained.sectors[k]

theorem State.sectorsKept_get (k : SectorIx) : s.sectorsKept[k] = s.kept k := by
  simp [State.sectorsKept, State.kept, State.sector]

theorem State.poolsSound_iff : s.PoolsSound ↔ s.PoolOk ∧ s.ChainsStand := by
  have live := poolSound_iff s.freeList s.sectorsKept
  have retained := poolSound_iff s.retained.freeList s.retained.sectors
  simp only [State.sectorsKept_get] at live
  constructor
  · rintro ⟨hl, hr⟩
    obtain ⟨whole, chains, stands⟩ := live.mp hl
    obtain ⟨whole', chains', stands'⟩ := retained.mp hr
    exact ⟨⟨whole, by simpa [ChainsOk, State.sectorsKept_get] using chains, whole', chains'⟩, stands, stands'⟩
  · rintro ⟨⟨whole, chains, whole', chains'⟩, stands, stands'⟩
    exact ⟨live.mpr ⟨whole, by simpa [ChainsOk, State.sectorsKept_get] using chains, stands⟩,
      retained.mpr ⟨whole', chains', stands'⟩⟩

/-! ### Changes of the pool -/

/-- One sector and the free list exchange slots. -/
theorem PoolSound.exchange {free free' : List Slot} {f g : SectorIx → RetainedSector} (h : PoolSound free f)
    (k : SectorIx) (others : ∀ i, i ≠ k → g i = f i)
    (slots : ∀ slot, free'.count slot + (g k).holds slot = free.count slot + (f k).holds slot)
    (sound : (g k).Sound k) : PoolSound free' g := by
  refine ⟨fun slot => ?_, fun i => ?_⟩
  · have same : ∑ i ∈ Finset.univ.erase k, (g i).holds slot = ∑ i ∈ Finset.univ.erase k, (f i).holds slot :=
      Finset.sum_congr rfl fun i hi => by rw [others i (Finset.ne_of_mem_erase hi)]
    have before := h.once slot
    rw [← Finset.add_sum_erase _ _ (Finset.mem_univ k)] at before ⊢
    have := slots slot
    omega
  · by_cases e : i = k
    · exact e ▸ sound
    · rw [others i e]
      exact h.sound i

/-- Every sector changes and keeps its slots. -/
theorem PoolSound.map {free : List Slot} {f g : SectorIx → RetainedSector} (h : PoolSound free f)
    (slots : ∀ k slot, (g k).holds slot = (f k).holds slot) (sound : ∀ k, (g k).Sound k) : PoolSound free g :=
  ⟨fun slot => by simpa only [slots] using h.once slot, sound⟩

/-- Some sectors are emptied onto the free list; the others keep their slots. -/
theorem PoolSound.empty {free lost : List Slot} {f g : SectorIx → RetainedSector} (h : PoolSound free f)
    (slots : ∀ slot, lost.count slot + ∑ k, (g k).holds slot = ∑ k, (f k).holds slot) (sound : ∀ k, (g k).Sound k) :
    PoolSound (pushSlots free lost) g := by
  refine ⟨fun slot => ?_, sound⟩
  have before := h.once slot
  have moved := slots slot
  rw [pushSlots, List.count_append, List.count_reverse]
  omega

theorem RetainedSector.sound_of_empty (k : SectorIx) {r : RetainedSector} (empty : r.live.chain = [])
    (low : r.live.hHard ≤ 2000000) : r.Sound k := by
  refine ⟨?_, ?_, fun _ => empty, low, ?_, fun _ => empty⟩ <;> simp [empty, standsOn]

theorem RetainedSector.holds_of_empty (slot : Slot) {r : RetainedSector} (empty : r.live.chain = []) :
    r.holds slot = 0 := by
  simp [RetainedSector.holds, empty]

theorem poolSound_fresh {f : SectorIx → RetainedSector} (empty : ∀ k, (f k).live.chain = [])
    (low : ∀ k, (f k).live.hHard ≤ 2000000) : PoolSound freshPool f := by
  refine ⟨fun slot => ?_, fun k => RetainedSector.sound_of_empty k (empty k) (low k)⟩
  rw [Finset.sum_eq_zero fun k _ => RetainedSector.holds_of_empty slot (empty k)]
  exact List.count_eq_one_of_mem (List.nodup_finRange 256) (List.mem_finRange slot)

theorem State.kept_setSector (k i : SectorIx) (x : Sector) :
    (s.setSector k x).kept i = if i = k then ⟨x.defined, x.live⟩ else s.kept i := by
  unfold State.kept
  rw [s.sector_setSector]
  split <;> rfl

/-- A sector record is written, and the sector and the free list exchange slots. -/
theorem PoolSound.setSector {free : List Slot} {k : SectorIx} {x : Sector} (h : PoolSound s.freeList s.kept)
    (slots : ∀ slot, free.count slot + RetainedSector.holds slot ⟨x.defined, x.live⟩ =
      s.freeList.count slot + (s.kept k).holds slot)
    (sound : RetainedSector.Sound k ⟨x.defined, x.live⟩) : PoolSound free (s.setSector k x).kept := by
  refine h.exchange k (fun i hi => ?_) (fun slot => ?_) ?_
  · rw [State.kept_setSector, if_neg hi]
  · rw [State.kept_setSector, if_pos rfl, slots]
  · rw [State.kept_setSector, if_pos rfl]
    exact sound

/-- A change of layers that leaves each in its slot, its sector and its place. -/
structure KeepsPlace (f : Layer → Layer) : Prop where
  slot : ∀ l, (f l).slot = l.slot
  sector : ∀ l, (f l).sector = l.sector
  base : ∀ l, (f l).base = l.base
  top : ∀ l, (f l).top = l.top

theorem KeepsPlace.refresh (plan : Plan) : KeepsPlace (Layer.refresh plan) :=
  ⟨fun _ => rfl, fun _ => rfl, fun _ => rfl, fun _ => rfl⟩

theorem KeepsPlace.mature (n : Nat) : KeepsPlace (Layer.mature n) :=
  ⟨fun _ => rfl, fun _ => rfl, fun _ => rfl, fun _ => rfl⟩

/-- A sector whose layers change in their places. -/
def RetainedSector.mapLayers (f : Layer → Layer) (r : RetainedSector) : RetainedSector :=
  { r with live := { r.live with chain := r.live.chain.map f } }

theorem KeepsPlace.holds {f : Layer → Layer} (hf : KeepsPlace f) (slot : Slot) (r : RetainedSector) :
    (r.mapLayers f).holds slot = r.holds slot := by
  have slots : Layer.slot ∘ f = Layer.slot := funext hf.slot
  simp only [RetainedSector.holds, RetainedSector.mapLayers, List.map_map, slots]

theorem KeepsPlace.sound {f : Layer → Layer} (hf : KeepsPlace f) {k : SectorIx} {r : RetainedSector} (h : r.Sound k) :
    (r.mapLayers f).Sound k := by
  obtain ⟨low, stands, based⟩ := h.stands
  refine ⟨?_, fun l hl => ?_, fun d => ?_, low, ?_, fun b => ?_⟩
  · simpa [RetainedSector.mapLayers] using h.short
  · obtain ⟨m, hm, rfl⟩ := List.mem_map.mp hl
    rw [hf.sector]
    exact h.own m hm
  · simpa [RetainedSector.mapLayers] using h.undefined d
  · exact (standsOn_map hf.base hf.top _ _).trans stands
  · simpa [RetainedSector.mapLayers] using based b

/-- Layers taken from the bottom of a sound chain leave a sound one on the last one's top (R36). -/
theorem RetainedSector.Sound.drop {k : SectorIx} {r : RetainedSector} (h : r.Sound k) {gone rest : List Layer}
    (parts : r.live.chain = gone ++ rest) (retired : Nat) :
    Sound k { r with live := { r.live with
      hHard := fillOver r.live.hHard gone, chain := rest, retired := retired } } := by
  obtain ⟨low, stands, based⟩ := h.stands
  rw [parts, standsOn_append, Bool.and_eq_true] at stands
  refine ⟨?_, fun l hl => h.own l (by simp [parts, hl]), fun d => ?_, fillOver_le low stands.1, stands.2, fun b => ?_⟩
  · have := h.short
    rw [parts, List.length_append] at this
    exact (Nat.le_add_left ..).trans this
  · exact (List.append_eq_nil_iff.mp (parts ▸ h.undefined d)).2
  · exact (List.append_eq_nil_iff.mp (parts ▸ based b)).2

/-- A fresh layer on the fill elevation (R28, R29). -/
theorem RetainedSector.Sound.append {k : SectorIx} {r : RetainedSector} (h : r.Sound k) (defined : r.defined = true)
    (based : r.live.based = true) (short : r.live.chain.length < 16) {l : Layer} (own : l.sector = k)
    (base : l.base = fillOver r.live.hHard r.live.chain) (thick : l.base + 200 ≤ l.top ∧ l.top ≤ l.base + 4000)
    (low : l.top ≤ 2000000) (placed : Nat) :
    Sound k { r with live := { r.live with chain := r.live.chain ++ [l], placed := placed } } := by
  obtain ⟨hard, stands, -⟩ := h.stands
  refine ⟨by simpa using short, fun m hm => ?_, fun d => ?_, hard, ?_, fun b => ?_⟩
  · rcases List.mem_append.mp hm with hm | hm
    · exact h.own m hm
    · exact List.mem_singleton.mp hm ▸ own
  · exact absurd (defined.symm.trans d) nofun
  · dsimp only
    rw [standsOn_append, stands]
    simp [standsOn, ← base, thick, low]
  · exact absurd (based.symm.trans b) nofun

/-- The top layer taken off a sound chain (R33). -/
theorem RetainedSector.Sound.dropLast {k : SectorIx} {r : RetainedSector} (h : r.Sound k) {l : Layer}
    {below : List Layer} (parts : r.live.chain = below ++ [l]) :
    Sound k { r with live := { r.live with chain := below } } := by
  obtain ⟨low, stands, based⟩ := h.stands
  rw [parts, standsOn_append, Bool.and_eq_true] at stands
  refine ⟨?_, fun l hl => h.own l (by simp [parts, hl]), fun d => ?_, low, stands.1, fun b => ?_⟩
  · have := h.short
    rw [parts, List.length_append] at this
    exact (Nat.le_add_right ..).trans this
  · exact (List.append_eq_nil_iff.mp (parts ▸ h.undefined d)).1
  · exact (List.append_eq_nil_iff.mp (parts ▸ based b)).1

theorem RetainedSector.holds_append (slot : Slot) {r : RetainedSector} {below above : List Layer}
    (parts : r.live.chain = below ++ above) :
    r.holds slot = (below.map Layer.slot).count slot + (above.map Layer.slot).count slot := by
  rw [RetainedSector.holds, parts, List.map_append, List.count_append]

/-! ### A configuration taken into use -/

/-- A sector of the live deck and its retained copy meet a configuration alike (R20, R169). -/
theorem Sector.reconfigure_eq (k : Sector) (d : Option SectorDef) :
    k.reconfigure d = rebuildSector ⟨k.defined, k.live⟩ d := by cases d <;> rfl

/-- A sector under a configuration, as retained memory would keep it. -/
def RetainedSector.under (r : RetainedSector) (d : Option SectorDef) : RetainedSector :=
  ⟨(rebuildSector r d).defined, (rebuildSector r d).live⟩

theorem RetainedSector.under_cases {k : SectorIx} {r : RetainedSector} (h : r.Sound k) (d : Option SectorDef) :
    (d.isNone = true ∧ (r.under d).live = SectorLive.default) ∨
    (d.isNone = false ∧ (r.under d).live.chain = r.live.chain ∧ (r.under d).Sound k) := by
  cases d with
  | none => exact .inl ⟨rfl, rfl⟩
  | some d =>
    refine .inr ⟨rfl, ?_⟩
    cases hd : r.defined with
    | true =>
      have live : r.under (some d) = { r with defined := true } := by simp [RetainedSector.under, rebuildSector, hd]
      rw [live]
      exact ⟨rfl, h.short, h.own, nofun, h.stands⟩
    | false =>
      have live : r.under (some d) = ⟨true, SectorLive.default⟩ := by simp [RetainedSector.under, rebuildSector, hd]
      rw [live]
      exact ⟨(h.undefined hd).symm, RetainedSector.sound_of_empty k rfl (Nat.zero_le _)⟩

/-- The slots of sectors that a configuration leaves undefined go onto the free list (R44). -/
theorem PoolSound.under {free : List Slot} {f : SectorIx → RetainedSector} (h : PoolSound free f) (c : Configuration) :
    PoolSound (pushSlots free (lostSlots (fun k => (f k).live.chain) c)) fun k => (f k).under c.sectors[k] := by
  refine h.empty (fun slot => ?_) fun k => ?_
  · rw [lostSlots, List.count_flatMap, ← Fin.sum_univ_def, ← Finset.sum_add_distrib]
    refine Finset.sum_congr rfl fun k _ => ?_
    rcases RetainedSector.under_cases (h.sound k) c.sectors[k] with ⟨none, live⟩ | ⟨some, chain, -⟩
    · rw [RetainedSector.holds_of_empty slot (by rw [live]; rfl)]
      simp only [Function.comp_apply, none, if_true, RetainedSector.holds, Nat.add_zero]
    · rw [RetainedSector.holds, chain]
      simp only [Function.comp_apply, some, Bool.false_eq_true, if_false, List.count_nil, RetainedSector.holds,
        Nat.zero_add]
  · rcases RetainedSector.under_cases (h.sound k) c.sectors[k] with ⟨-, live⟩ | ⟨-, -, sound⟩
    · exact RetainedSector.sound_of_empty k (by rw [live]; rfl) (by rw [live]; exact Nat.zero_le _)
    · exact sound

theorem State.kept_refreshAll (k : SectorIx) : s.refreshAll.kept k = (s.kept k).mapLayers (Layer.refresh s.active) := by
  rw [State.kept, State.refreshAll_sector]
  rfl

theorem PoolSound.refreshAll (h : PoolSound s.freeList s.kept) : PoolSound s.freeList s.refreshAll.kept := by
  refine h.map (fun k slot => ?_) fun k => ?_
  · rw [State.kept_refreshAll, (KeepsPlace.refresh _).holds]
  · rw [State.kept_refreshAll]
    exact (KeepsPlace.refresh _).sound (h.sound k)

theorem PoolSound.replaceRecords (h : PoolSound s.freeList s.kept) (c : Configuration) :
    PoolSound (s.replaceRecords c).freeList (s.replaceRecords c).kept := by
  have kept : (s.replaceRecords c).kept = fun k => (s.kept k).under c.sectors[k] := by
    funext k
    rw [State.kept, State.replaceRecords_sector, Sector.reconfigure_eq]
    rfl
  rw [kept]
  exact h.under c

theorem PoolSound.rebuildRecords (h : PoolSound s.retained.freeList fun k => s.retained.sectors[k])
    (c : Configuration) : PoolSound (s.rebuildRecords c).freeList (s.rebuildRecords c).kept := by
  have kept : (s.rebuildRecords c).kept = fun k : SectorIx => s.retained.sectors[k].under c.sectors[k] := by
    funext k
    rw [State.kept, State.rebuildRecords_sector]
    rfl
  rw [kept]
  exact h.under c

theorem Sector.clear_live (k : Sector) : k.clear.live = SectorLive.default := by
  unfold Sector.clear
  split <;> rfl

theorem poolSound_clearLive : PoolSound s.clearLive.freeList s.clearLive.kept := by
  have live : ∀ k, (s.clearLive.kept k).live = SectorLive.default := fun k => by
    rw [State.kept, State.clearLive_sector]
    exact Sector.clear_live _
  have free : s.clearLive.freeList = freshPool := by simp only [State.clearLive]
  rw [free]
  refine poolSound_fresh (fun k => ?_) fun k => ?_
  · rw [live]
    rfl
  · rw [live]
    exact Nat.zero_le _

/-! ### The changes of one sector -/

theorem PoolSound.define (h : PoolSound s.freeList s.kept) (k : SectorIx) (probe : Option ProbeIx) :
    PoolSound s.freeList (s.setSector k ((s.sector k).define probe)).kept := by
  have sector : (s.sector k).define probe = (s.sector k).reconfigure (some ⟨probe⟩) := rfl
  rw [sector, Sector.reconfigure_eq]
  obtain ⟨⟨⟩, -⟩ | ⟨-, chain, sound⟩ := RetainedSector.under_cases (h.sound k) (some ⟨probe⟩)
  exact h.setSector (fun slot => congrArg (fun c => _ + (c.map Layer.slot).count slot) chain) sound

theorem PoolSound.retireSector (h : PoolSound s.freeList s.kept) (k : SectorIx) :
    PoolSound (s.retireSector k).freeList (s.retireSector k).kept := by
  rcases s.retireSector_cases k with e | ⟨d, -, -, e⟩
  · rw [e]
    exact h
  · rw [e]
    have parts := (List.takeWhile_append_dropWhile (p := retirable ((d : Int) - s.active.hf))
      (l := (s.sector k).live.chain)).symm
    refine h.setSector (fun slot => ?_) ((h.sound k).drop parts _)
    rw [RetainedSector.holds_append slot (r := s.kept k) parts, List.count_append, List.count_reverse]
    simp only [RetainedSector.holds]
    omega

theorem PoolSound.appendLayer (h : PoolSound s.freeList s.kept) {k : SectorIx} {slot : Slot} {free : List Slot}
    {thickness : Nat} {c : Fin 4} (defined : (s.sector k).defined = true) (based : (s.sector k).live.based = true)
    (thick : 200 ≤ thickness ∧ thickness ≤ 4000) (low : (s.sector k).fill + thickness ≤ 2000000)
    (short : (s.sector k).live.chain.length < 16) (top : s.freeList = slot :: free) :
    PoolSound free (s.appendLayer k slot free thickness c).kept := by
  refine h.setSector (fun x => ?_) ((h.sound k).append defined based short rfl rfl
    ⟨Nat.add_le_add_left thick.1 _, Nat.add_le_add_left thick.2 _⟩ low _)
  simp only [top, RetainedSector.holds, State.kept, newLayer, List.map_append, List.map_cons, List.map_nil,
    List.count_append, List.count_cons, List.count_nil]
  omega

theorem PoolSound.withdrawLayer (h : PoolSound s.freeList s.kept) {k : SectorIx} {l : Layer}
    (top : (s.sector k).live.chain.getLast? = some l) :
    PoolSound (s.withdrawLayer k l).freeList (s.withdrawLayer k l).kept := by
  have parts := (List.dropLast_append_getLast? l top).symm
  refine h.setSector (fun slot => ?_) ((h.sound k).dropLast parts)
  show (l.slot :: s.freeList).count slot + _ = _
  rw [RetainedSector.holds_append slot (r := s.kept k) parts]
  simp only [RetainedSector.holds, List.map_cons, List.map_nil, List.count_cons, List.count_nil]
  omega

theorem PoolSound.age (h : PoolSound s.freeList s.kept) (k : SectorIx) (n : Nat) :
    PoolSound s.freeList (s.setSectorLive k { (s.sector k).live with
      chain := ((s.sector k).live.chain.map (Layer.mature n)).map (Layer.refresh s.active) }).kept := by
  have mature := KeepsPlace.mature n
  have refresh := KeepsPlace.refresh s.active
  exact h.setSector (fun slot => congrArg _ ((refresh.holds slot _).trans (mature.holds slot (s.kept k))))
    (refresh.sound (mature.sound (h.sound k)))

/-- Every change keeps the pools and the chains of the live deck and of its retained copy. -/
theorem State.PoolsSound.change (h : s.PoolsSound) (change : Change matched s t) : t.PoolsSound := by
  obtain ⟨live, retained⟩ := h
  cases change with
  | commit =>
    refine ⟨live, ?_⟩
    have copy : (fun k : SectorIx => s.commit.retained.sectors[k]) = s.kept := funext fun k => State.sectorsKept_get k
    rw [copy]
    exact live
  | defineSector k probe => exact ⟨live.define k probe, retained⟩
  | undefineSector k unnamed empty =>
    refine ⟨live.setSector (fun slot => ?_) (RetainedSector.sound_of_empty k rfl (Nat.zero_le _)), retained⟩
    rw [RetainedSector.holds_of_empty slot rfl, RetainedSector.holds_of_empty slot (r := s.kept k) empty]
    rfl
  | base k elevation defined empty low =>
    refine ⟨live.setSector (fun slot => ?_) (RetainedSector.sound_of_empty k empty low), retained⟩
    rw [RetainedSector.holds_of_empty slot empty, RetainedSector.holds_of_empty slot (r := s.kept k) empty]
    rfl
  | place k slot free thickness c defined based thick low short top =>
    exact ⟨live.appendLayer defined based thick low short top, retained⟩
  | withdraw k l defined top => exact ⟨live.withdrawLayer top, retained⟩
  | retire k =>
    refine ⟨live.retireSector k, ?_⟩
    rcases s.retireSector_cases k with e | ⟨_, _, _, e⟩ <;> rw [e] <;> exact retained
  | age k n => exact ⟨live.age k n, retained⟩
  | apply => exact ⟨PoolSound.refreshAll (s := { s with active := s.staged }) live, retained⟩
  | replace c offered => exact ⟨(live.replaceRecords c).refreshAll, retained⟩
  | rebuild c offered => exact ⟨(PoolSound.rebuildRecords retained c).refreshAll, retained⟩
  | lose c offered => exact ⟨poolSound_clearLive, retained⟩
  | clear => exact ⟨poolSound_clearLive, retained⟩
  | _ => exact ⟨live, retained⟩

end Sys2Proof.Machine
end

section
/-! SUPPORT. Definitions: what each change leaves of them (R1, R15, R169). -/

namespace Sys2Proof.Machine

variable {matched : Prop} {s t u : State}

/-- The configuration of a save in progress. -/
theorem State.savedConfiguration?_eq_some {c : Configuration} :
    s.savedConfiguration? = some c ↔ ∃ serial, s.storeOp = some (.save c serial) := by
  unfold State.savedConfiguration?
  split <;> simp_all

/-! ### Records that are defined, or at their defaults -/

/-- A defined jack names a sector that is defined; a jack that is not defined is at its defaults. -/
structure Jack.Placed (defined : SectorIx → Bool) (j : Jack) : Prop where
  sector : j.live.state ≠ .undefined → defined j.sector = true
  default : j.live.state = .undefined → j = Jack.undefined

/-- A sector that is not defined is at its defaults. -/
def Sector.Standing (k : Sector) : Prop := k.defined = false → k = Sector.undefined

theorem Jack.defined_iff (j : Jack) : j.defined = true ↔ j.live.state ≠ .undefined := by simp [Jack.defined]

theorem Jack.not_defined_iff (j : Jack) : j.defined = false ↔ j.live.state = .undefined := by simp [Jack.defined]

theorem State.definitionsOk_iff : s.DefinitionsOk ↔
    (∀ j, (s.jack j).Placed fun k => (s.sector k).defined) ∧ (∀ k, (s.sector k).Standing) ∧
    s.store.contents.Consistent ∧ ∀ c ∈ s.savedConfiguration?, c.Consistent := by
  simp only [State.DefinitionsOk, Jack.defined_iff, Jack.not_defined_iff]
  exact ⟨fun ⟨named, jacks, rest⟩ => ⟨fun j => ⟨named j, jacks j⟩, rest⟩,
    fun ⟨placed, rest⟩ => ⟨fun j => (placed j).sector, fun j => (placed j).default, rest⟩⟩

theorem Jack.placed_undefined (defined : SectorIx → Bool) : Jack.undefined.Placed defined :=
  ⟨fun h => absurd rfl h, fun _ => rfl⟩

/-- A defined jack that keeps its sector. -/
theorem Jack.Placed.of_sector {defined : SectorIx → Bool} {j : Jack} (stays : j.live.state ≠ .undefined)
    (sector : defined j.sector = true) : j.Placed defined := ⟨fun _ => sector, fun h => absurd h stays⟩

/-- Sectors that stay defined keep the jacks in place. -/
theorem Jack.Placed.mono {defined defined' : SectorIx → Bool} {j : Jack} (h : j.Placed defined)
    (stays : j.live.state ≠ .undefined → defined j.sector = true → defined' j.sector = true) : j.Placed defined' :=
  ⟨fun d => stays d (h.sector d), h.default⟩

/-! ### A configuration taken into use -/

theorem Configuration.factory_consistent : Configuration.factory.Consistent := by
  intro j d hd
  simp [Configuration.factory] at hd

theorem Sector.reconfigure_defined (k : Sector) (d : Option SectorDef) : (k.reconfigure d).defined = d.isSome := by
  cases d <;> rfl

theorem rebuildSector_defined (r : RetainedSector) (d : Option SectorDef) : (rebuildSector r d).defined = d.isSome := by
  cases d <;> rfl

theorem rebuildSector_standing (r : RetainedSector) (d : Option SectorDef) : (rebuildSector r d).Standing := by
  cases d with
  | none => exact fun _ => rfl
  | some d => exact nofun

theorem Sector.reconfigure_standing (k : Sector) (d : Option SectorDef) : (k.reconfigure d).Standing := by
  cases d with
  | none => exact fun _ => rfl
  | some d => exact nofun

theorem Jack.reconfigure_placed {c : Configuration} (consistent : c.Consistent) (old : Jack) (j : JackIx) :
    (old.reconfigure c.jacks[j]).Placed fun k => c.sectors[k].isSome := by
  cases h : c.jacks[j] with
  | none => exact Jack.placed_undefined _
  | some d =>
    refine .of_sector ?_ (consistent j d h)
    show (if old.defined then old.live else JackLive.fresh).state ≠ .undefined
    split
    · next defined => exact old.defined_iff.mp defined
    · exact nofun

theorem rebuildJack_placed {c : Configuration} (consistent : c.Consistent) (v : JackLive) (j : JackIx) :
    (rebuildJack v c.jacks[j]).Placed fun k => c.sectors[k].isSome := by
  cases h : c.jacks[j] with
  | none => exact Jack.placed_undefined _
  | some d =>
    refine .of_sector ?_ (consistent j d h)
    unfold rebuildJack
    dsimp only
    split_ifs with undefined
    · exact nofun
    · exact nofun
    · exact undefined

theorem State.Offers.consistent {c : Configuration} (offered : s.Offers c) (stored : s.store.contents.Consistent) :
    c.Consistent := by
  rcases offered with rfl | rfl
  · exact stored
  · exact Configuration.factory_consistent

/-- The configuration in use defines the sectors that its jacks name. -/
theorem State.configuration_consistent (h : s.DefinitionsOk) : s.configuration.Consistent := by
  intro j d hd
  have jack : (s.jack j).definition = some d := by simpa [State.configuration, State.jack] using hd
  have sector : s.configuration.sectors[d.sector] = (s.sector d.sector).definition := by
    simp [State.configuration, State.sector]
  unfold Jack.definition at jack
  split at jack
  · next defined =>
    cases jack
    rw [sector, Sector.definition, if_pos (h.1 j defined)]
    rfl
  · cases jack

/-! ### Changes of the definitions -/

/-- One jack record is written. -/
theorem State.DefinitionsOk.setJack (h : s.DefinitionsOk) {j : JackIx} {x : Jack}
    (placed : x.Placed fun k => (s.sector k).defined) : (s.setJack j x).DefinitionsOk := by
  rw [State.definitionsOk_iff] at h ⊢
  obtain ⟨jacks, rest⟩ := h
  refine ⟨fun i => ?_, rest⟩
  rw [s.jack_setJack]
  split
  · exact placed
  · exact jacks i

/-- Sector records are written: those that are not defined stay at their defaults, and no sector that a jack names
loses its definition. -/
theorem State.DefinitionsOk.setSector (h : s.DefinitionsOk) {k : SectorIx} {x : Sector} (standing : x.Standing)
    (stays : x.defined = true ∨ s.named k = false) : (s.setSector k x).DefinitionsOk := by
  rw [State.definitionsOk_iff] at h ⊢
  obtain ⟨jacks, sectors, rest⟩ := h
  refine ⟨fun j => (jacks j).mono fun defined sector => ?_, fun i => ?_, rest⟩
  · rw [s.sector_setSector]
    split
    · next e =>
      refine stays.resolve_right fun unnamed => ?_
      have := mt (s.named_iff k).mpr (by simp [unnamed])
      exact this ⟨j, defined, e⟩
    · exact sector
  · rw [s.sector_setSector]
    split
    · exact standing
    · exact sectors i

/-- A defined sector's live fields change. -/
theorem State.DefinitionsOk.setSectorLive (h : s.DefinitionsOk) {k : SectorIx} {v : SectorLive}
    (defined : (s.sector k).defined = true) : (s.setSectorLive k v).DefinitionsOk :=
  h.setSector (fun d => absurd (defined.symm.trans d) nofun) (.inl defined)

theorem State.DefinitionsOk.retireSector (h : s.DefinitionsOk) (k : SectorIx) : (s.retireSector k).DefinitionsOk := by
  rcases s.retireSector_cases k with e | ⟨d, -, slip, e⟩
  · rw [e]
    exact h
  · have defined : (s.sector k).defined = true := (Bool.and_eq_true_iff.mp slip).1
    rw [e]
    exact h.setSectorLive defined

/-- A delivery to a sector that is not defined finds no layers. -/
theorem State.DefinitionsOk.age (h : s.DefinitionsOk) (k : SectorIx) (n : Nat) :
    (s.setSectorLive k { (s.sector k).live with
      chain := ((s.sector k).live.chain.map (Layer.mature n)).map (Layer.refresh s.active) }).DefinitionsOk := by
  have hk := (State.definitionsOk_iff.mp h).2.1 k
  cases hd : (s.sector k).defined with
  | true => exact h.setSectorLive hd
  | false =>
    rw [State.setSectorLive, hk hd]
    refine h.setSector (fun _ => rfl) (.inr ?_)
    rw [← Bool.not_eq_true, s.named_iff]
    rintro ⟨j, defined, rfl⟩
    exact absurd (((State.definitionsOk_iff.mp h).1 j).sector defined) (by simp [hd])

/-- A refresh changes the layers of defined sectors alone. -/
theorem State.DefinitionsOk.refreshAll (h : s.DefinitionsOk) : s.refreshAll.DefinitionsOk := by
  rw [State.definitionsOk_iff] at h ⊢
  obtain ⟨jacks, sectors, rest⟩ := h
  refine ⟨fun j => (jacks j).mono fun _ defined => ?_, fun k d => ?_, rest⟩
  · rw [State.refreshAll_sector]
    exact defined
  · rw [State.refreshAll_sector] at d ⊢
    rw [sectors k d]
    rfl

/-- Every record comes from a consistent configuration, and the store is as it was. -/
theorem State.DefinitionsOk.of_configuration (h : s.DefinitionsOk) {c : Configuration}
    (jacks : ∀ j, (t.jack j).Placed fun k => c.sectors[k].isSome)
    (defined : ∀ k : SectorIx, (t.sector k).defined = c.sectors[k].isSome) (sectors : ∀ k, (t.sector k).Standing)
    (store : t.store = s.store) (op : t.storeOp = s.storeOp) : t.DefinitionsOk := by
  obtain ⟨-, -, stored, saved⟩ := State.definitionsOk_iff.mp h
  refine State.definitionsOk_iff.mpr ⟨by simpa only [defined] using jacks, sectors, store ▸ stored,
    fun c hc => saved c ?_⟩
  rw [Option.mem_def, State.savedConfiguration?_eq_some] at hc ⊢
  exact op ▸ hc

theorem Jack.clear_placed {defined : SectorIx → Bool} {j : Jack} (h : j.Placed defined) : j.clear.Placed defined := by
  unfold Jack.clear
  split
  · next d => exact .of_sector nofun (h.sector (j.defined_iff.mp d))
  · exact Jack.placed_undefined _

theorem Sector.clear_defined (k : Sector) : k.clear.defined = k.defined := by
  unfold Sector.clear
  split
  · rfl
  · next d => exact (Bool.not_eq_true _ ▸ d).symm

theorem Sector.clear_standing (k : Sector) : k.clear.Standing := by
  unfold Sector.clear
  split
  · next d => exact fun e => absurd (d.symm.trans e) nofun
  · exact fun _ => rfl

theorem State.DefinitionsOk.clearLive (h : s.DefinitionsOk) : s.clearLive.DefinitionsOk := by
  rw [State.definitionsOk_iff] at h ⊢
  obtain ⟨jacks, sectors, rest⟩ := h
  refine ⟨fun j => ?_, fun k => ?_, rest⟩
  · simp only [State.clearLive_jack, State.clearLive_sector, Sector.clear_defined]
    exact Jack.clear_placed (jacks j)
  · rw [State.clearLive_sector]
    exact (s.sector k).clear_standing

theorem State.DefinitionsOk.replaceRecords (h : s.DefinitionsOk) {c : Configuration} (consistent : c.Consistent) :
    (s.replaceRecords c).DefinitionsOk := by
  refine h.of_configuration (c := c) (fun j => ?_) (fun k => ?_) (fun k => ?_)
    (by dsimp only [State.replaceRecords]) (by dsimp only [State.replaceRecords])
  · rw [State.replaceRecords_jack]
    exact Jack.reconfigure_placed consistent _ j
  · rw [State.replaceRecords_sector]
    exact Sector.reconfigure_defined ..
  · rw [State.replaceRecords_sector]
    exact Sector.reconfigure_standing _ _

theorem State.DefinitionsOk.rebuildRecords (h : s.DefinitionsOk) {c : Configuration} (consistent : c.Consistent) :
    (s.rebuildRecords c).DefinitionsOk := by
  refine h.of_configuration (c := c) (fun j => ?_) (fun k => ?_) (fun k => ?_)
    (by dsimp only [State.rebuildRecords]) (by dsimp only [State.rebuildRecords])
  · rw [State.rebuildRecords_jack]
    exact rebuildJack_placed consistent _ j
  · rw [State.rebuildRecords_sector]
    exact rebuildSector_defined ..
  · rw [State.rebuildRecords_sector]
    exact rebuildSector_standing _ _

theorem State.DefinitionsOk.forget (h : s.DefinitionsOk) {c : Configuration} (consistent : c.Consistent) :
    (s.forget c).DefinitionsOk := by
  refine h.of_configuration (c := c) (fun j => ?_) (fun k => ?_) (fun k => ?_)
    (by dsimp only [State.forget]) (by dsimp only [State.forget])
  · rw [State.forget_jack]
    exact Jack.reconfigure_placed consistent _ j
  · rw [State.forget_sector]
    exact Sector.reconfigure_defined ..
  · rw [State.forget_sector]
    exact Sector.reconfigure_standing _ _

/-- Every change keeps the definitions in order. -/
theorem State.DefinitionsOk.change (h : s.DefinitionsOk) (known : matched) (change : Change matched s t) :
    t.DefinitionsOk := by
  obtain ⟨jacks, sectors, stored, saved⟩ := State.definitionsOk_iff.mp h
  cases change with
  | defineJack j st g k sector =>
    refine h.setJack (.of_sector ?_ sector)
    rw [Jack.define_eq]
    dsimp only
    split
    · exact nofun
    · assumption
  | undefineJack j => exact h.setJack (Jack.placed_undefined _)
  | live j v defined stays range => exact h.setJack (.of_sector stays ((jacks j).sector (defined known)))
  | issue st j length ready moving grantable =>
    have sector := (jacks j).sector (by simp [ready])
    exact State.DefinitionsOk.setJack (s := s.setGrant j _) h (.of_sector nofun sector)
  | defineSector k probe => exact h.setSector nofun (.inl rfl)
  | undefineSector k unnamed empty => exact h.setSector (fun _ => rfl) (.inr unnamed)
  | base k elevation defined empty low => exact h.setSectorLive defined
  | place k slot free thickness c defined based thick low short top =>
    exact State.DefinitionsOk.setSectorLive (s := { s with freeList := free }) h defined
  | withdraw k l defined top => exact State.DefinitionsOk.setSectorLive (s := { s with freeList := _ }) h defined
  | retire k => exact h.retireSector k
  | age k n => exact h.age k n
  | apply => exact State.DefinitionsOk.refreshAll (s := { s with active := s.staged }) h
  | replace c offered => exact (h.replaceRecords (offered.consistent stored)).refreshAll
  | rebuild c offered => exact (h.rebuildRecords (offered.consistent stored)).refreshAll
  | lose c offered =>
    rw [State.loseDeck_eq]
    exact (h.forget (offered.consistent stored)).clearLive
  | clear => exact h.clearLive
  | startBlocks c battery => exact State.definitionsOk_iff.mpr ⟨jacks, sectors, stored, nofun⟩
  | beginSave serial =>
    refine State.definitionsOk_iff.mpr ⟨jacks, sectors, stored, fun c hc => ?_⟩
    cases hc
    exact State.configuration_consistent h
  | storeOp op notSave =>
    refine State.definitionsOk_iff.mpr ⟨jacks, sectors, stored, fun c hc => ?_⟩
    obtain ⟨serial, e⟩ := State.savedConfiguration?_eq_some.mp hc
    exact absurd e (notSave c serial)
  | saved c serial saving =>
    exact State.definitionsOk_iff.mpr
      ⟨jacks, sectors, saved c (State.savedConfiguration?_eq_some.mpr ⟨serial, saving⟩), saved⟩
  | _ => exact h

end Sys2Proof.Machine

open Sys2Proof Sys2Proof.Machine

/-- Settles O58: a step is a run of changes, and each change keeps the pools, the chains and the definitions. -/
theorem poolStaysWhole : Obligations.PoolStaysWhole := by
  refine ⟨fun s t pool stands run => ?_, fun s t definitions granted run => ?_⟩
  · exact State.poolsSound_iff.mp <|
      (step_changes run).keep (fun _ _ h change => h.change change) (State.poolsSound_iff.mpr ⟨pool, stands⟩)
  · exact (step_changes run).keep (fun _ _ h change => State.DefinitionsOk.change h granted change) definitions

end

section
/-! SUPPORT. The plan's parameters, and the flags of layers: what each change leaves of them (R26, R129). -/

namespace Sys2Proof.Machine

variable {matched : Prop} {s t u : State}

/-! ### Parameters in their ranges -/

/-- A parameter whose range has no negative value is read off as it stands. -/
theorem Plan.toNat_get {p : Plan} (h : p.InRange) (n : Param) (low : 0 ≤ n.lowest) :
    ((p.get n).toNat : Int) = p.get n :=
  Int.toNat_of_nonneg (low.trans (h n).1)

/-- The bounds of a parameter that is read off as a natural number. -/
theorem Plan.toNat_get_mem {p : Plan} (h : p.InRange) (n : Param) {lo hi : Nat} (hlo : n.lowest = lo)
    (hhi : n.highest = hi) : lo ≤ (p.get n).toNat ∧ (p.get n).toNat ≤ hi := by
  have bounds := h n
  have value := Plan.toNat_get h n (hlo ▸ Int.natCast_nonneg lo)
  omega

theorem Plan.lnom_mem {p : Plan} (h : p.InRange) : 100 ≤ p.lnom ∧ p.lnom ≤ 350 := Plan.toNat_get_mem h 2 rfl rfl

theorem Plan.crawlStroke_mem {p : Plan} (h : p.InRange) : 50 ≤ p.crawlStroke ∧ p.crawlStroke ≤ 100 :=
  Plan.toNat_get_mem h 13 rfl rfl

theorem Plan.rel_pos {p : Plan} (h : p.InRange) (c : Fin 4) : 0 < p.rel c := by
  have low : 10000 ≤ p.rel c := match c with
    | 0 => (Plan.toNat_get_mem h 17 (hi := 400000) rfl rfl).1
    | 1 => (Plan.toNat_get_mem h 19 (hi := 400000) rfl rfl).1
    | 2 => (Plan.toNat_get_mem h 21 (hi := 400000) rfl rfl).1
    | 3 => (Plan.toNat_get_mem h 23 (hi := 400000) rfl rfl).1
  omega

theorem Plan.stk_pos {p : Plan} (h : p.InRange) (c : Fin 4) : 0 < p.stk c := by
  have low : 20000 ≤ p.stk c := match c with
    | 0 => (Plan.toNat_get_mem h 18 (hi := 2000000) rfl rfl).1
    | 1 => (Plan.toNat_get_mem h 20 (hi := 2000000) rfl rfl).1
    | 2 => (Plan.toNat_get_mem h 22 (hi := 2000000) rfl rfl).1
    | 3 => (Plan.toNat_get_mem h 24 (hi := 2000000) rfl rfl).1
  omega

/-- The parameters by name are the parameters by number (section 7.1). -/
theorem Plan.named_eq_map_get {p : Plan} (h : p.InRange) :
    [(p.tol : Int), p.lalm, p.lnom, p.cadence, p.gto, p.budget .A, p.budget .B, p.hf, p.emb, p.freeboard, p.survlim,
      p.datum, p.fallback, p.crawlStroke, p.crawlInt, p.crawlLim, p.aliveTo, p.rel 0, p.stk 0, p.rel 1, p.stk 1,
      p.rel 2,
      p.stk 2, p.rel 3, p.stk 3] = (List.finRange 25).map p.get := by
  have numbers : List.finRange 25 =
      [0, 1, 2, 3, 4, 5, 6, 7, 8, 9, 10, 11, 12, 13, 14, 15, 16, 17, 18, 19, 20, 21, 22, 23, 24] := rfl
  have value : ∀ n : Param, 0 ≤ n.lowest →
    ((p.get n).toNat : Int) = p.get n := fun n => Plan.toNat_get h n
  have natural : ∀ n ∈ [(0 : Param), 1, 2, 3, 4, 5, 6, 7, 8, 9, 10, 13, 14, 15, 16, 17, 18, 19, 20, 21, 22, 23, 24],

    ((p.get n).toNat : Int) = p.get n := fun n hn => value n (by revert n; decide)
  simp only [List.forall_mem_cons] at natural
  simp only [numbers, List.map_cons, List.map_nil, Plan.tol, Plan.lalm, Plan.lnom, Plan.cadence, Plan.gto, Plan.budget,
    Plan.hf, Plan.emb, Plan.freeboard, Plan.survlim, Plan.datum, Plan.fallback, Plan.crawlStroke, Plan.crawlInt,
    Plan.crawlLim, Plan.aliveTo, Plan.rel, Plan.stk, natural]

theorem Plan.factory_inRange : Plan.factory.InRange := by decide

theorem Plan.set_inRange {p : Plan} (h : p.InRange) {n : Param} {x : Int} (range : n.lowest ≤ x ∧ x ≤ n.highest) :
    (p.set n x).InRange := by
  intro m
  have get : (p.set n x).get m = if m = n then x else p.get m := by
    simp only [Plan.get, Plan.set, Fin.getElem_fin, Vector.getElem_set, Fin.ext_iff, eq_comm]
  rw [get]
  split
  · next e => exact e ▸ range
  · exact h m

/-! ### Changes of the plans -/

theorem State.Offers.plan_inRange {c : Configuration} (offered : s.Offers c) (stored : s.store.contents.plan.InRange) :
    c.plan.InRange := by
  rcases offered with rfl | rfl
  · exact stored
  · exact Plan.factory_inRange

theorem State.savedPlan?_eq_some {p : Plan} :
    p ∈ s.savedPlan? ↔ ∃ c serial, s.storeOp = some (.save c serial) ∧ c.plan = p := by
  simp [State.savedPlan?, State.savedConfiguration?_eq_some]

/-- New plans in use and staged, with the store as it was. -/
theorem State.PlansInRange.of_store (h : s.PlansInRange) (active : t.active.InRange) (staged : t.staged.InRange)
    (store : t.store = s.store) (op : t.storeOp = s.storeOp) : t.PlansInRange := by
  obtain ⟨-, -, stored, saved⟩ := h
  refine ⟨active, staged, store ▸ stored, fun p hp => saved p ?_⟩
  rw [State.savedPlan?_eq_some] at hp ⊢
  exact op ▸ hp

/-- Every change keeps the plans in their ranges. -/
theorem State.PlansInRange.change (h : s.PlansInRange) (change : Change matched s t) : t.PlansInRange := by
  have ⟨active, staged, stored, saved⟩ := h
  cases change with
  | stage n x range => exact ⟨active, Plan.set_inRange staged range, stored, saved⟩
  | apply => exact ⟨staged, staged, stored, saved⟩
  | replace c offered =>
    have plan := offered.plan_inRange stored
    apply h.of_store <;> dsimp only [State.refreshAll, State.replaceRecords] <;> exact plan
  | rebuild c offered =>
    have plan := offered.plan_inRange stored
    apply h.of_store <;> dsimp only [State.refreshAll, State.rebuildRecords]
    · exact plan
    · exact staged
  | retire k => rcases s.retireSector_cases k with e | ⟨_, _, _, e⟩ <;> rw [e] <;> exact h
  | lose c offered => exact ⟨offered.plan_inRange stored, staged, stored, saved⟩
  | startBlocks c battery => exact ⟨active, active, stored, nofun⟩
  | beginSave serial =>
    refine ⟨active, staged, stored, fun p hp => ?_⟩
    cases hp
    exact active
  | storeOp op notSave =>
    refine ⟨active, staged, stored, fun p hp => ?_⟩
    obtain ⟨c, serial, e, -⟩ := State.savedPlan?_eq_some.mp hp
    exact absurd e (notSave c serial)
  | saved c serial saving =>
    exact ⟨active, staged, saved _ (State.savedPlan?_eq_some.mpr ⟨c, serial, saving, rfl⟩), saved⟩
  | _ => exact ⟨active, staged, stored, saved⟩

/-! ### Changes of the flags -/

theorem Layer.refresh_refresh (plan : Plan) (l : Layer) : (l.refresh plan).refresh plan = l.refresh plan := rfl

/-- A fresh layer has both flags clear, as its maturity 0 has under every plan in range (R26, R29). -/
theorem newLayer_refresh {plan : Plan} (h : plan.InRange) (slot : Slot) (k : SectorIx) (base thickness : Nat)
    (c : Fin 4) : (newLayer slot k base thickness c).refresh plan = newLayer slot k base thickness c := by
  simp [Layer.refresh, newLayer, (Plan.rel_pos h c).ne', (Plan.stk_pos h c).ne']

theorem State.refreshAll_flagsFollow : s.refreshAll.FlagsFollow := by
  intro k l hl
  rw [State.refreshAll_sector] at hl
  obtain ⟨m, -, rfl⟩ := List.mem_map.mp hl
  exact Layer.refresh_refresh ..

theorem State.clearLive_flagsFollow : s.clearLive.FlagsFollow := by
  intro k l hl
  rw [State.clearLive_sector, Sector.clear_live] at hl
  cases hl

/-- One sector's chain is written with its flags right. -/
theorem State.FlagsFollow.setSector (h : s.FlagsFollow) {k : SectorIx} {x : Sector}
    (flags : ∀ l ∈ x.live.chain, l.refresh s.active = l) : (s.setSector k x).FlagsFollow := by
  intro i
  rw [s.sector_setSector]
  split
  · exact flags
  · exact h i

theorem State.FlagsFollow.retireSector (h : s.FlagsFollow) (k : SectorIx) : (s.retireSector k).FlagsFollow := by
  rcases s.retireSector_cases k with e | ⟨d, -, -, e⟩ <;> rw [e]
  · exact h
  · exact State.FlagsFollow.setSector h fun l hl => h k l ((List.dropWhile_sublist _).subset hl)

/-- Every change keeps the flags as the active plan has them. -/
theorem State.FlagsFollow.change (h : s.FlagsFollow) (plans : s.PlansInRange) (change : Change matched s t) :
    t.FlagsFollow := by
  cases change with
  | defineSector k probe =>
    refine State.FlagsFollow.setSector h fun l hl => ?_
    unfold Sector.define at hl
    split at hl
    · exact h k l hl
    · cases hl
  | undefineSector k unnamed empty => exact State.FlagsFollow.setSector h nofun
  | base k elevation defined empty low => exact State.FlagsFollow.setSector h (h k)
  | place k slot free thickness c defined based thick low short top =>
    refine State.FlagsFollow.setSector (s := { s with freeList := free }) h fun l hl => ?_
    rcases List.mem_append.mp hl with hl | hl
    · exact h k l hl
    · rw [List.mem_singleton.mp hl]
      exact newLayer_refresh plans.1 ..
  | withdraw k l defined top =>
    exact State.FlagsFollow.setSector (s := { s with freeList := _ }) h fun m hm =>
      h k m ((List.dropLast_sublist _).subset hm)
  | retire k => exact State.FlagsFollow.retireSector h k
  | age k n =>
    refine State.FlagsFollow.setSector h fun l hl => ?_
    obtain ⟨m, -, rfl⟩ := List.mem_map.mp hl
    exact Layer.refresh_refresh ..
  | apply => exact State.refreshAll_flagsFollow
  | replace c offered => exact State.refreshAll_flagsFollow
  | rebuild c offered => exact State.refreshAll_flagsFollow
  | lose c offered => exact State.clearLive_flagsFollow
  | clear => exact State.clearLive_flagsFollow
  | _ => exact h

end Sys2Proof.Machine
end

section
/-! SUPPORT. The ranges of the records: what each change leaves of them (R2, R15, R25, R46, R81, R114, R154, R161,
R166). -/

namespace Sys2Proof.Machine

variable {matched : Prop} {s t u : State}

/-! ### Records that are new, read or rewritten -/

theorem JackLive.default_inRange : JackLive.default.InRange := by
  simp [JackLive.InRange, JackLive.default]

theorem JackLive.fresh_inRange : JackLive.fresh.InRange := by
  simp [JackLive.InRange, JackLive.fresh, JackLive.default]

theorem SectorLive.default_inRange : SectorLive.default.InRange := by
  simp [SectorLive.InRange, SectorLive.default]

theorem DeckCounters.zero_inRange : DeckCounters.zero.InRange := by decide

theorem PortCounters.zero_inRange : PortCounters.zero.InRange := by decide

theorem Jack.define_inRange {j : Jack} (h : j.live.InRange) (st : Station) (g : Fin 8) (k : SectorIx) :
    (j.define st g k).live.InRange := by
  unfold Jack.define
  dsimp only
  split
  · exact h
  · exact JackLive.fresh_inRange

theorem Jack.reconfigure_inRange {j : Jack} (h : j.live.InRange) (d : Option JackDef) :
    (j.reconfigure d).live.InRange := by
  cases d with
  | none => exact JackLive.default_inRange
  | some d => exact Jack.define_inRange h d.station d.group d.sector

theorem rebuildJack_inRange {v : JackLive} (h : v.InRange) (d : Option JackDef) : (rebuildJack v d).live.InRange := by
  cases d with
  | none => exact JackLive.default_inRange
  | some d =>
    unfold rebuildJack
    dsimp only
    split_ifs
    · exact JackLive.fresh_inRange
    · obtain ⟨height, rod, length, second, short, strokes, -⟩ := h
      exact ⟨height, rod, length, second, short, strokes, sat16_le _⟩
    · exact h

theorem Jack.clear_inRange (j : Jack) : j.clear.live.InRange := by
  unfold Jack.clear
  split
  · exact JackLive.fresh_inRange
  · exact JackLive.default_inRange

theorem Sector.define_inRange {k : Sector} (h : k.live.InRange) (probe : Option ProbeIx) :
    (k.define probe).live.InRange := by
  unfold Sector.define
  dsimp only
  split
  · exact h
  · exact SectorLive.default_inRange

theorem rebuildSector_inRange {r : RetainedSector} (h : r.live.InRange) (d : Option SectorDef) :
    (rebuildSector r d).live.InRange := by
  cases d with
  | none => exact SectorLive.default_inRange
  | some d =>
    unfold rebuildSector
    dsimp only
    split
    · exact h
    · exact SectorLive.default_inRange

theorem Layer.refresh_inRange {l : Layer} (h : l.InRange) (plan : Plan) : (l.refresh plan).InRange := h

theorem Layer.mature_inRange {l : Layer} (h : l.InRange) (n : Nat) : (l.mature n).InRange := by
  obtain ⟨base, top, -, -⟩ := h
  exact ⟨base, top, Nat.min_le_right .., sat16_le _⟩

/-- Every layer of a chain changes within its range. -/
theorem SectorLive.map_inRange {v : SectorLive} (h : v.InRange) {f : Layer → Layer}
    (each : ∀ l : Layer, l.InRange → (f l).InRange) : SectorLive.InRange { v with chain := v.chain.map f } := by
  obtain ⟨hard, placed, retired, layers⟩ := h
  refine ⟨hard, placed, retired, fun l hl => ?_⟩
  obtain ⟨m, hm, rfl⟩ := List.mem_map.mp hl
  exact each m (layers m hm)

theorem fillOver_inRange {base : Nat} {chain : List Layer} (low : base ≤ 2000000) (layers : ∀ l ∈ chain, l.InRange) :
    fillOver base chain ≤ 2000000 := by
  unfold fillOver
  split
  · next l hl => exact (layers l (List.mem_of_getLast? hl)).2.1
  · exact low

/-! ### Probes (R47 to R51) -/

theorem Probe.fresh_inRange : Probe.fresh.InRange := by
  simp [Probe.InRange, Probe.fresh]

section Probes

variable {p : Probe} {x : Int}

/-- A window whose slots are valid samples. -/
def validWindow (w : Vector Int 4) : Prop := ∀ i : Fin 4, -300 ≤ w[i] ∧ w[i] ≤ 800

theorem Probe.fill_window (valid : validSample x = true) : validWindow (p.fill x).window := by
  simp only [validSample, Bool.and_eq_true, decide_eq_true_eq] at valid
  intro i
  simpa [Probe.fill] using valid

theorem Probe.enter_window (valid : validSample x = true) (window : validWindow p.window) :
    validWindow (p.enter x).window := by
  simp only [validSample, Bool.and_eq_true, decide_eq_true_eq] at valid
  intro i
  simp only [Probe.enter, Fin.getElem_fin, Vector.getElem_set]
  split
  · exact valid
  · exact window i

theorem Probe.takeValid_inRange (h : p.InRange) (valid : validSample x = true) : (p.takeValid x).InRange := by
  obtain ⟨window, invalid, recovery, faults⟩ := h
  have fill := Probe.fill_window (p := p) valid
  have enter := Probe.enter_window valid window
  unfold Probe.takeValid
  split
  · exact ⟨fill, Nat.zero_le _, recovery, faults⟩
  · exact ⟨enter, Nat.zero_le _, recovery, faults⟩
  · split_ifs with first more
    · exact ⟨fill, Nat.zero_le _, by simp, faults⟩
    · exact ⟨enter, Nat.zero_le _, more, faults⟩
    · exact ⟨enter, Nat.zero_le _, Nat.zero_le _, faults⟩

theorem Probe.takeInvalid_inRange (h : p.InRange) : p.takeInvalid.InRange := by
  obtain ⟨window, invalid, recovery, faults⟩ := h
  have fail : Probe.InRange
      { p with invalidRun := 3, state := .fault, recoveryRun := 0, faultCount := sat16 (p.faultCount + 1) } :=
    ⟨window, Nat.le_refl 3, Nat.zero_le _, sat16_le _⟩
  unfold Probe.takeInvalid
  split
  case h_3 => exact ⟨window, Nat.le_refl 3, Nat.zero_le _, faults⟩
  all_goals
    split
    · next few => exact ⟨window, Nat.le_succ_of_le few, recovery, faults⟩
    · exact fail

theorem Probe.take_inRange (h : p.InRange) (x : Int) : (p.take x).InRange := by
  unfold Probe.take
  dsimp only
  split
  · next valid =>
    exact Probe.takeValid_inRange (p := { p with lastSample := some x, lastValid := validSample x }) h valid
  · exact Probe.takeInvalid_inRange (p := { p with lastSample := some x, lastValid := validSample x }) h

end Probes

/-! ### Changes of the ranges -/

section Parts

variable (h : s.RangesOk)
include h

theorem State.RangesOk.jack (j : JackIx) : (s.jack j).live.InRange := h.1 j

theorem State.RangesOk.sector (k : SectorIx) : (s.sector k).live.InRange := h.2.1 k

theorem State.RangesOk.retained : s.retained.toRetainedCopy.InRange := by
  obtain ⟨-, -, -, -, -, -, -, -, -, retained, -⟩ := h
  exact retained

theorem State.RangesOk.clock : s.clock ≤ clockTop := by
  obtain ⟨-, -, -, -, -, -, -, clock⟩ := State.RangesOk.retained h
  exact clock

end Parts

theorem State.RangesOk.setJack (h : s.RangesOk) {j : JackIx} {x : Jack} (range : x.live.InRange) :
    (s.setJack j x).RangesOk := by
  obtain ⟨jacks, rest⟩ := h
  refine ⟨fun i => ?_, rest⟩
  rw [s.jack_setJack]
  split
  · exact range
  · exact jacks i

theorem State.RangesOk.setSector (h : s.RangesOk) {k : SectorIx} {x : Sector} (range : x.live.InRange) :
    (s.setSector k x).RangesOk := by
  obtain ⟨jacks, sectors, rest⟩ := h
  refine ⟨jacks, fun i => ?_, rest⟩
  rw [s.sector_setSector]
  split
  · exact range
  · exact sectors i

theorem State.RangesOk.setSectorLive (h : s.RangesOk) {k : SectorIx} {v : SectorLive} (range : v.InRange) :
    (s.setSectorLive k v).RangesOk := State.RangesOk.setSector h range

theorem State.RangesOk.setGrant (h : s.RangesOk) {j : JackIx} {g : Option Grant} (range : ∀ x ∈ g, x.InRange) :
    (s.setGrant j g).RangesOk := by
  obtain ⟨jacks, sectors, probes, grants, rest⟩ := h
  refine ⟨jacks, sectors, probes, fun i => ?_, rest⟩
  rw [s.grant?_setGrant]
  split
  · exact range
  · exact grants i

theorem State.RangesOk.count (h : s.RangesOk) {f : DeckCounters → DeckCounters}
    (range : s.counters.InRange → (f s.counters).InRange) : (s.count f).RangesOk := by
  obtain ⟨jacks, sectors, probes, grants, holds, crawl, serial, counters, rest⟩ := h
  exact ⟨jacks, sectors, probes, grants, holds, crawl, serial, range counters, rest⟩

theorem State.RangesOk.setPort (h : s.RangesOk) {p : Port} {x : PortRec} (steps : (s.port p).StepsTo x) :
    (s.setPort p x).RangesOk := by
  obtain ⟨jacks, sectors, probes, grants, holds, crawl, serial, counters, ports, retained, answers⟩ := h
  refine ⟨jacks, sectors, probes, grants, holds, crawl, serial, counters, fun q => ?_, retained, fun q a ha => ?_⟩
  · rw [s.port_setPort]
    split
    · exact steps.counters (ports p)
    · exact ports q
  · rw [s.port_setPort] at ha
    split at ha
    · exact (steps.answer a ha).elim (answers p a) id
    · exact answers q a ha

theorem State.RangesOk.refreshAll (h : s.RangesOk) : s.refreshAll.RangesOk := by
  obtain ⟨jacks, sectors, rest⟩ := h
  refine ⟨jacks, fun k => ?_, rest⟩
  rw [State.refreshAll_sector]
  exact SectorLive.map_inRange (sectors k) fun l hl => Layer.refresh_inRange hl _

theorem State.RangesOk.retireSector (h : s.RangesOk) (k : SectorIx) : (s.retireSector k).RangesOk := by
  rcases s.retireSector_cases k with e | ⟨d, -, -, e⟩ <;> rw [e]
  · exact h
  · obtain ⟨hard, placed, -, layers⟩ := State.RangesOk.sector h k
    have gone := fun l hl => layers l ((List.takeWhile_sublist (retirable ((d : Int) - s.active.hf))).subset hl)
    have kept := fun l hl => layers l ((List.dropWhile_sublist (retirable ((d : Int) - s.active.hf))).subset hl)
    have live : ∀ n, SectorLive.InRange { (s.sector k).live with
        hHard := fillOver (s.sector k).live.hHard _, chain := _, retired := sat16 n } :=
      fun n => ⟨fillOver_inRange hard gone, placed, sat16_le n, kept⟩
    exact State.RangesOk.count (f := fun c => { c with layersRetired := sat32 (c.layersRetired + _) })
      (State.RangesOk.setSectorLive (s := { s with freeList := _ }) (k := k) h (live _))
      fun ⟨h1, h2, h3, h4, h5, h6, _, h8⟩ => ⟨h1, h2, h3, h4, h5, h6, sat32_le _, h8⟩

theorem State.RangesOk.appendLayer (h : s.RangesOk) {k : SectorIx} {slot : Slot} {free : List Slot} {thickness : Nat}
    {c : Fin 4} (low : (s.sector k).fill + thickness ≤ 2000000) : (s.appendLayer k slot free thickness c).RangesOk := by
  obtain ⟨hard, -, retired, layers⟩ := State.RangesOk.sector h k
  have layer : (newLayer slot k (s.sector k).fill thickness c).InRange :=
    ⟨(Nat.le_add_right ..).trans low, low, Nat.zero_le _, Nat.zero_le _⟩
  have live : SectorLive.InRange { (s.sector k).live with
      chain := (s.sector k).live.chain ++ [newLayer slot k (s.sector k).fill thickness c]
      placed := sat16 ((s.sector k).live.placed + 1) } :=
    ⟨hard, sat16_le _, retired, List.forall_mem_append.mpr ⟨layers, List.forall_mem_singleton.mpr layer⟩⟩
  exact State.RangesOk.count (State.RangesOk.setSectorLive (s := { s with freeList := free }) h live)
    fun ⟨h1, h2, h3, h4, h5, _, rest⟩ => ⟨h1, h2, h3, h4, h5, sat32_le _, rest⟩

theorem State.RangesOk.withdrawLayer (h : s.RangesOk) (k : SectorIx) (l : Layer) : (s.withdrawLayer k l).RangesOk := by
  obtain ⟨hard, placed, retired, layers⟩ := State.RangesOk.sector h k
  have live : SectorLive.InRange { (s.sector k).live with chain := (s.sector k).live.chain.dropLast } :=
    ⟨hard, placed, retired, fun m hm => layers m (List.mem_of_mem_dropLast hm)⟩
  exact State.RangesOk.count (f := fun c => { c with layersWithdrawn := sat32 (c.layersWithdrawn + 1) })
    (State.RangesOk.setSectorLive (s := { s with freeList := pushSlots s.freeList [l.slot] }) (k := k) h live)
    fun ⟨h1, h2, h3, h4, h5, h6, h7, _⟩ => ⟨h1, h2, h3, h4, h5, h6, h7, sat32_le _⟩

theorem State.Grantable.inRange {length : Nat} (h : s.Grantable length) (plan : s.active.InRange) :
    50 ≤ length ∧ length ≤ 350 := by
  have lnom := Plan.lnom_mem plan
  have stroke := Plan.crawlStroke_mem plan
  rcases h with rfl | h <;> omega

theorem Mode.of_moving {m : Mode} (h : m.moving = true) : m = .rise ∨ m = .crawl := by
  cases m <;> simp [Mode.moving] at h ⊢

theorem State.RangesOk.issue (h : s.RangesOk) {st : Station} {j : JackIx} {length : Nat}
    (moving : s.mode.moving = true) (range : 50 ≤ length ∧ length ≤ 350) : (s.issue st j length).RangesOk := by
  obtain ⟨height, rod, -, -, rest⟩ := State.RangesOk.jack h j
  have clock := State.RangesOk.clock h
  have grant : Grant.InRange ⟨st, length, s.clock, s.expirySecond, s.mode⟩ :=
    ⟨range.1, range.2, clock, Nat.min_le_right .., Mode.of_moving moving⟩
  have live : JackLive.InRange { (s.jack j).live with
      state := .granted, lastLength := length, lastSecond := some s.clock } :=
    ⟨height, rod, .inr range, fun t ht => Option.mem_some.mp ht ▸ clock, rest⟩
  exact State.RangesOk.count (State.RangesOk.setJack
      (State.RangesOk.setGrant h fun g hg => Option.mem_some.mp hg ▸ grant)
    live) fun ⟨_, counters⟩ => ⟨sat32_le _, counters⟩

/-- The lowest height of the level-bearing set is a jack's. -/
theorem State.exists_height_of_hMin {m : Nat} (h : s.hMin = some m) : ∃ j, (s.jack j).live.height = m := by
  obtain ⟨r, hr, hm⟩ := List.mem_filterMap.mp (List.min?_mem h)
  split at hm
  · obtain ⟨i, hi, rfl⟩ := Vector.mem_iff_getElem.mp (Vector.mem_toList_iff.mp hr)
    exact ⟨⟨i, hi⟩, by injection hm⟩
  · cases hm

theorem State.RangesOk.commit (h : s.RangesOk) : s.commit.RangesOk := by
  obtain ⟨jacks, sectors, probes, grants, holds, crawl, serial, counters, ports, retained, answers⟩ := h
  obtain ⟨-, -, -, -, -, -, stamp, counter⟩ := retained
  refine ⟨jacks, sectors, probes, grants, holds, crawl, serial, counters, ports,
    ⟨fun j => ?_, fun k => ?_, fun x hx => holds x (List.mem_of_mem_filter hx),
      crawl, serial, counters, stamp, counter⟩,
    answers⟩
  · have live : s.commit.retained.jacks[j] = (s.jack j).live := by simp [State.commit, State.liveCopy, State.jack]
    exact live ▸ jacks j
  · have live : s.commit.retained.sectors[k].live = (s.sector k).live := by
      simp [State.commit, State.liveCopy, State.sector]
    exact live ▸ sectors k

theorem State.RangesOk.clearLive (h : s.RangesOk) : s.clearLive.RangesOk := by
  obtain ⟨jacks, sectors, probes, grants, holds, crawl, serial, counters, ports, retained, answers⟩ := h
  obtain ⟨jacks', sectors', holds', crawl', serial', counters', -, -⟩ := retained
  refine ⟨fun j => ?_, fun k => ?_, probes, grants, holds, nofun, serial, DeckCounters.zero_inRange, ports,
    ⟨jacks', sectors', holds', crawl', serial', counters', Nat.zero_le _, Nat.zero_le _⟩, answers⟩
  · rw [State.clearLive_jack]
    exact Jack.clear_inRange _
  · rw [State.clearLive_sector, Sector.clear_live]
    exact SectorLive.default_inRange

/-- New tables of jacks and sectors, with holds, serial and counters in their ranges. -/
theorem State.RangesOk.tables (h : s.RangesOk) {js : Vector Jack 96} {ks : Vector Sector 24} {hs : List Hold}
    {entry : Option Nat} {n : Nat} {f : DeckCounters} (jacks : ∀ j : JackIx, js[j].live.InRange)
    (sectors : ∀ k : SectorIx, ks[k].live.InRange) (holds : ∀ x ∈ hs, x.placed ≤ clockTop)
    (crawl : ∀ e ∈ entry, e ≤ 2000000) (serial : n ≤ 65535) (counters : f.InRange) (free : List Slot) (p q : Plan)
    (rejected : Bool) :
    State.RangesOk { s with
      jacks := js, sectors := ks, freeList := free, holds := hs, crawlEntry := entry, planSerial := n, counters := f
      active := p, staged := q, planRejected := rejected } := by
  obtain ⟨-, -, probes, grants, -, -, -, -, ports, retained, answers⟩ := h
  exact ⟨jacks, sectors, probes, grants, holds, crawl, serial, counters, ports, retained, answers⟩

theorem State.RangesOk.forget (h : s.RangesOk) (c : Configuration) : (s.forget c).RangesOk := by
  obtain ⟨-, -, -, -, -, crawl, -, counters, -⟩ := id h
  unfold State.forget
  refine State.RangesOk.tables h (fun j => ?_) (fun k => ?_) (List.forall_mem_nil _) crawl
    (Nat.zero_le _) counters _ _ _ _
  · rw [Fin.getElem_fin, Vector.getElem_ofFn]
    exact Jack.reconfigure_inRange JackLive.default_inRange _
  · rw [Fin.getElem_fin, Vector.getElem_ofFn, Sector.reconfigure_eq]
    exact rebuildSector_inRange SectorLive.default_inRange _

theorem State.RangesOk.replaceRecords (h : s.RangesOk) (c : Configuration) : (s.replaceRecords c).RangesOk := by
  obtain ⟨jacks, sectors, -, -, holds, crawl, -, counters, -⟩ := id h
  unfold State.replaceRecords
  refine State.RangesOk.tables h (fun j => ?_) (fun k => ?_) holds crawl (nextSerial_le _) counters _ _ _ _
  · rw [Fin.getElem_fin, Vector.getElem_ofFn]
    exact Jack.reconfigure_inRange (jacks j) _
  · rw [Fin.getElem_fin, Vector.getElem_ofFn, Sector.reconfigure_eq]
    exact rebuildSector_inRange (sectors k) _

theorem State.RangesOk.rebuildRecords (h : s.RangesOk) (c : Configuration) : (s.rebuildRecords c).RangesOk := by
  obtain ⟨jacks, sectors, holds, crawl, -, ⟨issued, -, counters⟩, -⟩ := State.RangesOk.retained h
  have expiries : DeckCounters.InRange { s.retained.counters with
      expiries := sat32 (s.retained.counters.expiries + lostGrants s.retained c) } := ⟨issued, sat32_le _, counters⟩
  dsimp only [State.rebuildRecords]
  refine State.RangesOk.tables h (fun j => ?_) (fun k => ?_) ?_ ?_ ?_ ?_ _ _ _ _
  · rw [Fin.getElem_fin, Vector.getElem_ofFn]
    exact rebuildJack_inRange (jacks j) _
  · rw [Fin.getElem_fin, Vector.getElem_ofFn]
    exact rebuildSector_inRange (sectors k) _
  · exact fun x hx => holds x (List.mem_of_mem_filter hx)
  · exact crawl
  · exact nextSerial_le _
  · exact expiries

theorem State.RangesOk.startBlocks (h : s.RangesOk) (c : Configuration) (battery : Nat) :
    (s.startBlocks c battery).RangesOk := by
  obtain ⟨jacks, sectors, -, -, holds, crawl, serial, counters, -, retained, -⟩ := h
  have probe : ∀ n, (s.startBlocks c battery).probe n = Probe.fresh := fun n => by
    simp [State.startBlocks, State.probe]
  have grant : ∀ j, (s.startBlocks c battery).grant? j = none := fun j => by
    simp [State.startBlocks, State.grant?]
  have port : ∀ p, (s.startBlocks c battery).port p = PortRec.fresh c.speeds[p.ix] := fun p => by
    simp [State.startBlocks, State.port]
  refine ⟨jacks, sectors, fun n => ?_, fun j g hg => ?_, holds, crawl, serial, counters, fun p => ?_, retained,
    fun p a ha => ?_⟩
  · rw [probe]
    exact Probe.fresh_inRange
  · rw [grant] at hg
    cases hg
  · rw [port]
    exact PortCounters.zero_inRange
  · rw [port] at ha
    cases ha

theorem State.RangesOk.clearPortCounters (h : s.RangesOk) : s.clearPortCounters.RangesOk := by
  obtain ⟨jacks, sectors, probes, grants, holds, crawl, serial, counters, ports, retained, answers⟩ := h
  have port : ∀ p, s.clearPortCounters.port p = { s.port p with counters := PortCounters.zero } := fun p => by
    simp [State.clearPortCounters, State.port]
  refine ⟨jacks, sectors, probes, grants, holds, crawl, serial, counters, fun p => ?_, retained, fun p a ha => ?_⟩
  · rw [port]
    exact PortCounters.zero_inRange
  · rw [port] at ha
    exact answers p a ha

theorem State.RangesOk.sample (h : s.RangesOk) (samples : Vector Int 12) :
    State.RangesOk { s with probes := Vector.ofFn fun n => (s.probe n).take samples[n] } := by
  obtain ⟨jacks, sectors, probes, rest⟩ := h
  refine ⟨jacks, sectors, fun n => ?_, rest⟩
  have probe : State.probe { s with probes := Vector.ofFn fun n => (s.probe n).take samples[n] } n =
      (s.probe n).take samples[n] := by simp [State.probe]
  rw [probe]
  exact Probe.take_inRange (probes n) _

theorem State.RangesOk.memory (h : s.RangesOk) {stamp counter : Nat} (mark : Bool)
    (hstamp : stamp ≤ max s.retained.stamp s.retained.counter) (hcounter : counter ≤ max s.retained.counter clockTop) :
    State.RangesOk { s with retained := { s.retained with stamp := stamp, counter := counter, runMark := mark } } := by
  obtain ⟨jacks, sectors, probes, grants, holds, crawl, serial, counters, ports, retained, answers⟩ := h
  obtain ⟨jacks', sectors', holds', crawl', serial', counters', stamp', counter'⟩ := retained
  exact ⟨jacks, sectors, probes, grants, holds, crawl, serial, counters, ports,
    ⟨jacks', sectors', holds', crawl', serial', counters', hstamp.trans (Nat.max_le.mpr ⟨stamp', counter'⟩),
      hcounter.trans (Nat.max_le.mpr ⟨counter', Nat.le_refl _⟩)⟩, answers⟩

/-- Every change keeps the records in their ranges. -/
theorem State.RangesOk.change (h : s.RangesOk) (plans : s.PlansInRange) (change : Change matched s t) : t.RangesOk := by
  have ⟨jacks, sectors, probes, grants, holds, crawl, serial, counters, ports, retained, answers⟩ := h
  cases change with
  | port p x steps => exact State.RangesOk.setPort h steps
  | clearPorts => exact State.RangesOk.clearPortCounters h
  | commit => exact State.RangesOk.commit h
  | memory stamp counter mark hstamp hcounter => exact State.RangesOk.memory h mark hstamp hcounter
  | defineJack j st g k sector => exact State.RangesOk.setJack h (Jack.define_inRange (jacks j) st g k)
  | undefineJack j => exact State.RangesOk.setJack h JackLive.default_inRange
  | live j v defined stays range => exact State.RangesOk.setJack h (range (jacks j))
  | issue st j length ready moving grantable =>
    exact State.RangesOk.issue h moving (grantable.inRange plans.1)
  | ungrant j => exact State.RangesOk.setGrant h nofun
  | holds hs old =>
    refine ⟨jacks, sectors, probes, grants, fun x hx => ?_, crawl, serial, counters, ports, retained, answers⟩
    rcases old x hx with hx | now
    · exact holds x hx
    · exact now.trans_le (State.RangesOk.clock h)
  | count f range => exact State.RangesOk.count h range
  | crawl m lowest =>
    obtain ⟨j, rfl⟩ := State.exists_height_of_hMin lowest
    refine ⟨jacks, sectors, probes, grants, holds, fun e he => ?_, serial, counters, ports, retained, answers⟩
    cases he
    exact (jacks j).1
  | sample samples => exact State.RangesOk.sample h samples
  | defineSector k probe => exact State.RangesOk.setSector h (Sector.define_inRange (sectors k) probe)
  | undefineSector k unnamed empty => exact State.RangesOk.setSector h SectorLive.default_inRange
  | base k elevation defined empty low =>
    obtain ⟨-, rest⟩ := sectors k
    exact State.RangesOk.setSectorLive h ⟨low, rest⟩
  | place k slot free thickness c defined based thick low short top => exact State.RangesOk.appendLayer h low
  | withdraw k l defined top => exact State.RangesOk.withdrawLayer h k l
  | retire k => exact State.RangesOk.retireSector h k
  | age k n =>
    exact State.RangesOk.setSectorLive h <| SectorLive.map_inRange
      (SectorLive.map_inRange (sectors k) fun l hl => Layer.mature_inRange hl n) fun l hl => Layer.refresh_inRange hl _
  | apply => exact State.RangesOk.refreshAll (s := { s with active := s.staged }) h
  | serial n range => exact ⟨jacks, sectors, probes, grants, holds, crawl, range, counters, ports, retained, answers⟩
  | replace c offered => exact State.RangesOk.refreshAll (State.RangesOk.replaceRecords h c)
  | rebuild c offered => exact State.RangesOk.refreshAll (State.RangesOk.rebuildRecords h c)
  | lose c offered =>
    rw [State.loseDeck_eq]
    exact State.RangesOk.clearLive (State.RangesOk.forget h c)
  | clear => exact State.RangesOk.clearLive h
  | startBlocks c battery => exact State.RangesOk.startBlocks h c battery
  | _ => exact h

end Sys2Proof.Machine

open Sys2Proof Sys2Proof.Machine

/-- Settles O59: the table of section 7.1 read off, and each change of a step keeps plans, flags and ranges. -/
theorem plansAndFlagsStayRight : Obligations.PlansAndFlagsStayRight := by
  refine ⟨by decide, fun p h => Plan.named_eq_map_get h, fun plan l => rfl, fun s => rfl,
    fun s t plans flags run => ?_, fun s t plans ranges run => ?_⟩
  · exact (step_changes run).keep (P := fun s => s.PlansInRange ∧ s.FlagsFollow)
      (fun _ _ ⟨plans, flags⟩ change => ⟨plans.change change, State.FlagsFollow.change flags plans change⟩)
      ⟨plans, flags⟩
  · have kept := (step_changes run).keep (P := fun s => s.PlansInRange ∧ s.RangesOk)
      (fun _ _ ⟨plans, ranges⟩ change => ⟨plans.change change, State.RangesOk.change ranges plans change⟩)
      ⟨plans, ranges⟩
    exact kept.2

end

section
/-! SUPPORT. The derived values of a sector (R27, R65 to R76), and what a run of retirement leaves (R36, R39). -/

namespace Sys2Proof.Machine

variable {s : State}

/-! ### Heights (R65, R68) -/

theorem JackState.levelBearing_iff (st : JackState) :
    st.levelBearing = true ↔ st ∈ [JackState.ready, .granted, .stalled, .slip, .rodEnd] := by
  cases st <;> decide

/-- A height of a sector is that of one of its level-bearing jacks. -/
theorem State.mem_sectorHeights (s : State) (k : SectorIx) (d : Nat) :
    d ∈ s.sectorHeights k ↔ ∃ j : JackIx,
      ((s.jack j).live.state ∈ [JackState.ready, .granted, .stalled, .slip, .rodEnd] ∧ (s.jack j).sector = k) ∧
      (s.jack j).live.height = d := by
  have member : ∀ r : Jack, (if r.levelBearing && r.sector == k then some r.live.height else none) = some d ↔
      (r.live.state ∈ [JackState.ready, .granted, .stalled, .slip, .rodEnd] ∧ r.sector = k) ∧ r.live.height = d := by
    intro r
    rw [← JackState.levelBearing_iff]
    simp [Jack.levelBearing]
  simp only [State.sectorHeights, List.mem_filterMap, Vector.mem_toList_iff, member]
  constructor
  · rintro ⟨r, hr, h⟩
    obtain ⟨i, hi, rfl⟩ := Vector.mem_iff_getElem.mp hr
    exact ⟨⟨i, hi⟩, h⟩
  · rintro ⟨j, h⟩
    exact ⟨s.jack j, Vector.getElem_mem j.isLt, h⟩

theorem State.forall_sectorHeights (s : State) (k : SectorIx) (p : Nat → Prop) :
    (∀ d ∈ s.sectorHeights k, p d) ↔ ∀ j : JackIx,
      ((s.jack j).live.state ∈ [JackState.ready, .granted, .stalled, .slip, .rodEnd] ∧ (s.jack j).sector = k) →
      p (s.jack j).live.height := by
  simp only [State.mem_sectorHeights]
  exact ⟨fun all j member => all _ ⟨j, member, rfl⟩, fun all d ⟨j, member, height⟩ => height ▸ all j member⟩

theorem State.dLow_eq_some_iff (s : State) (k : SectorIx) (d : Nat) :
    s.dLow k = some d ↔ (s.sector k).defined = true ∧ d ∈ s.sectorHeights k ∧ ∀ x ∈ s.sectorHeights k, d ≤ x := by
  unfold State.dLow
  cases (s.sector k).defined <;> simp [List.min?_eq_some_iff]

theorem State.dHigh_eq_some_iff (s : State) (k : SectorIx) (d : Nat) :
    s.dHigh k = some d ↔ (s.sector k).defined = true ∧ d ∈ s.sectorHeights k ∧ ∀ x ∈ s.sectorHeights k, x ≤ d := by
  unfold State.dHigh
  cases (s.sector k).defined <;> simp [List.max?_eq_some_iff]

/-! ### Fill, release elevation and ceiling (R27, R69, R70) -/

theorem fillOver_eq (base : Nat) (chain : List Layer) :
    fillOver base chain = (chain.getLast?.map Layer.top).getD base := by
  unfold fillOver
  cases chain.getLast? <;> rfl

/-- The layers at the bottom of a chain that are released, and the elevation on top of them (R69). -/
theorem releaseWalk_eq (e : Nat) (chain : List Layer) :
    releaseWalk e chain = fillOver e (chain.takeWhile Layer.released) := by
  induction chain generalizing e with
  | nil => rfl
  | cons l rest ih =>
    unfold releaseWalk
    cases h : l.released with
    | true => rw [if_pos rfl, ih, List.takeWhile_cons_of_pos h, fillOver_cons]
    | false => rw [if_neg nofun, List.takeWhile_cons_of_neg (by simp [h])]; rfl

/-- A released bottom part passes the walk on to its top. -/
theorem releaseWalk_append (e : Nat) {below : List Layer} (above : List Layer)
    (released : ∀ l ∈ below, l.released = true) :
    releaseWalk e (below ++ above) = releaseWalk (fillOver e below) above := by
  induction below generalizing e with
  | nil => rfl
  | cons l rest ih =>
    obtain ⟨first, others⟩ := List.forall_mem_cons.mp released
    rw [List.cons_append, releaseWalk, if_pos first, ih _ others, fillOver_cons]

theorem fillOver_append (base : Nat) (below above : List Layer) :
    fillOver base (below ++ above) = fillOver (fillOver base below) above := by
  induction below generalizing base with
  | nil => rfl
  | cons l rest ih => rw [List.cons_append, fillOver_cons, ih, fillOver_cons]

theorem Sector.inSlip_iff (k : Sector) : k.inSlip = true ↔ k.defined = true ∧ k.live.based = true := by
  simp [Sector.inSlip]

/-! ### Flags (R74 to R76) -/

theorem State.overfill_iff (s : State) (k : SectorIx) :
    s.overfill k = true ↔ (s.sector k).inSlip = true ∧
      ∃ d, s.dLow k = some d ∧ (d : Int) - s.active.freeboard < ((s.sector k).fill : Int) := by
  unfold State.overfill
  cases s.dLow k <;> simp

theorem State.lag_iff (s : State) (k : SectorIx) :
    s.lag k = true ↔ (s.sector k).inSlip = true ∧
      ∃ d, s.dLow k = some d ∧
        ∃ l ∈ (s.sector k).live.chain, l.stuck = true ∧ (d : Int) - s.active.hf < (l.top : Int) := by
  unfold State.lag
  cases s.dLow k <;> simp

theorem State.exposed_iff (s : State) (k : SectorIx) :
    s.exposed k = true ↔ (s.sector k).inSlip = true ∧
      ∃ d, s.dHigh k = some d ∧
        ∃ l ∈ (s.sector k).live.chain, l.released = false ∧ (l.base : Int) < (d : Int) - s.active.hf := by
  unfold State.exposed
  cases s.dHigh k <;> simp

/-- No layer of a chain that stands lies below what it stands on. -/
theorem le_base_of_standsOn {e : Nat} {chain : List Layer} (stands : standsOn e chain = true) :
    ∀ l ∈ chain, e ≤ l.base := by
  induction chain generalizing e with
  | nil => nofun
  | cons m rest ih =>
    simp only [standsOn, Bool.and_eq_true, beq_iff_eq, decide_eq_true_eq] at stands
    obtain ⟨⟨⟨⟨base, thick⟩, -⟩, -⟩, above⟩ := stands
    intro l hl
    obtain rfl | hl := List.mem_cons.mp hl
    · exact base.ge
    · exact (Nat.le_trans (Nat.le_add_right ..) thick).trans (ih above l hl)

/-- In a chain that stands, the first unreleased layer lies on top of the released bottom part: some unreleased layer
lies below an elevation exactly when there is one and the release elevation does (R69, R76). -/
theorem exists_unreleased_below_iff {e : Nat} {chain : List Layer} (stands : standsOn e chain = true) (x : Int) :
    (∃ l ∈ chain, l.released = false ∧ (l.base : Int) < x) ↔
      (∃ l ∈ chain, l.released = false) ∧ (releaseWalk e chain : Int) < x := by
  induction chain generalizing e with
  | nil => simp
  | cons m rest ih =>
    have above := le_base_of_standsOn stands
    simp only [standsOn, Bool.and_eq_true, beq_iff_eq] at stands
    cases h : m.released with
    | true =>
      rw [releaseWalk, if_pos h]
      simpa [h] using ih stands.2
    | false =>
      rw [releaseWalk, if_neg (by simp [h])]
      constructor
      · rintro ⟨l, hl, free, low⟩
        exact ⟨⟨l, hl, free⟩, (Int.ofNat_le.mpr (above l hl)).trans_lt low⟩
      · exact fun low => ⟨m, List.mem_cons_self, h, stands.1.1.1.1 ▸ low.2⟩

/-! ### What a run of retirement leaves (R36, R39) -/

/-- A run takes from the bottom of a chain only released layers that lie low enough, and raises the hardened top over
them. -/
theorem State.retireSector_sector (s : State) (i k : SectorIx) :
    (s.retireSector k).sector i = s.sector i ∨
    ∃ (d : Nat) (gone kept : List Layer) (retired : Nat),
      s.dLow i = some d ∧ (s.sector i).live.chain = gone ++ kept ∧
      (∀ l ∈ gone, l.released = true ∧ (l.top : Int) ≤ (d : Int) - s.active.hf) ∧
      (s.retireSector k).sector i = { s.sector i with live := { (s.sector i).live with
        hHard := fillOver (s.sector i).live.hHard gone, chain := kept, retired := retired } } := by
  by_cases other : i = k
  · subst other
    rcases s.retireSector_cases i with e | ⟨d, low, -, e⟩
    · exact .inl (congrArg (State.sector · i) e)
    · have after := (congrArg (State.sector · i) e).trans ((s.sector_setSector i i _).trans (if_pos rfl))
      refine .inr ⟨d, _, _, _, low, List.takeWhile_append_dropWhile.symm, fun l hl => ?_, after⟩
      simpa [retirable] using List.mem_takeWhile_imp hl
  · exact .inl (s.retireSector_other other)

@[simp] theorem State.retireSector_defined (s : State) (i k : SectorIx) :
    ((s.retireSector k).sector i).defined = (s.sector i).defined := by
  rcases s.retireSector_sector i k with e | ⟨_, _, _, _, -, -, -, e⟩ <;> rw [e]

@[simp] theorem State.retireSector_inSlip (s : State) (i k : SectorIx) :
    ((s.retireSector k).sector i).inSlip = (s.sector i).inSlip := by
  rcases s.retireSector_sector i k with e | ⟨_, _, _, _, -, -, -, e⟩
  · rw [e]
  · rw [e]
    rfl

@[simp] theorem State.retireSector_dLow (s : State) (i k : SectorIx) : (s.retireSector k).dLow i = s.dLow i := by
  simp only [State.dLow, State.sectorHeights, State.retireSector_defined, State.retireSector_jacks]

@[simp] theorem State.retireSector_dHigh (s : State) (i k : SectorIx) : (s.retireSector k).dHigh i = s.dHigh i := by
  simp only [State.dHigh, State.sectorHeights, State.retireSector_defined, State.retireSector_jacks]

@[simp] theorem State.retireSector_fill (s : State) (i k : SectorIx) :
    ((s.retireSector k).sector i).fill = (s.sector i).fill := by
  rcases s.retireSector_sector i k with e | ⟨_, gone, kept, _, -, parts, -, e⟩
  · rw [e]
  · rw [e, Sector.fill, Sector.fill, parts, fillOver_append]

@[simp] theorem State.retireSector_eRel (s : State) (i k : SectorIx) :
    ((s.retireSector k).sector i).eRel = (s.sector i).eRel := by
  rcases s.retireSector_sector i k with e | ⟨_, gone, kept, _, -, parts, goes, e⟩
  · rw [e]
  · rw [e, Sector.eRel, Sector.eRel, parts, releaseWalk_append _ _ fun l hl => (goes l hl).1]

@[simp] theorem State.retireSector_dMax (s : State) (i k : SectorIx) : (s.retireSector k).dMax i = s.dMax i := by
  simp [State.dMax, concreteTerm, fillTerm]

@[simp] theorem State.retireSector_fillStarved (s : State) (i k : SectorIx) :
    (s.retireSector k).fillStarved i = s.fillStarved i := by
  unfold State.fillStarved fillTerm concreteTerm
  rw [State.retireSector_inSlip, State.retireSector_fill, State.retireSector_eRel, State.retireSector_active]

@[simp] theorem State.retireSector_overfill (s : State) (i k : SectorIx) :
    (s.retireSector k).overfill i = s.overfill i := by
  simp [State.overfill]

/-- A test that every layer taken fails is met in the chain that is left as in the whole one. -/
theorem State.retireSector_any (s : State) (i k : SectorIx) {test : Layer → Bool}
    (fails : ∀ d, s.dLow i = some d → ∀ l : Layer, l.released = true → (l.top : Int) ≤ (d : Int) - s.active.hf →
      test l = false) :
    ((s.retireSector k).sector i).live.chain.any test = (s.sector i).live.chain.any test := by
  rcases s.retireSector_sector i k with e | ⟨d, gone, kept, _, low, parts, goes, e⟩
  · rw [e]
  · have none : gone.any test = false :=
      List.any_eq_false.mpr fun l hl => by simp [fails d low l (goes l hl).1 (goes l hl).2]
    rw [e, parts, List.any_append, none, Bool.false_or]

@[simp] theorem State.retireSector_lag (s : State) (i k : SectorIx) : (s.retireSector k).lag i = s.lag i := by
  unfold State.lag
  rw [State.retireSector_dLow, State.retireSector_inSlip, State.retireSector_active]
  cases low : s.dLow i with
  | none => rfl
  | some d =>
    refine congrArg (_ && ·) (s.retireSector_any i k fun d' low' l _ top => ?_)
    obtain rfl : d = d' := Option.some.inj (low.symm.trans low')
    simp [top]

@[simp] theorem State.retireSector_exposed (s : State) (i k : SectorIx) :
    (s.retireSector k).exposed i = s.exposed i := by
  unfold State.exposed
  rw [State.retireSector_dHigh, State.retireSector_inSlip, State.retireSector_active]
  cases s.dHigh i with
  | none => rfl
  | some d => exact congrArg (_ && ·) (s.retireSector_any i k fun _ _ l released _ => by simp [released])

theorem sectorPair_eq (a b : SectorIx) : sectorPair a b = if a = b then [a] else [min a b, max a b] := by
  unfold sectorPair
  rcases lt_trichotomy a b with h | rfl | h
  · rw [if_pos h, if_neg h.ne, min_eq_left h.le, max_eq_right h.le]
  · simp
  · rw [if_neg h.asymm, if_pos h, if_neg h.ne', min_eq_right h.le, max_eq_left h.le]

/-- The first layer that a run of passing layers leaves over fails the test. -/
theorem not_of_mem_head?_dropWhile {test : Layer → Bool} {chain : List Layer} {l : Layer}
    (first : l ∈ (chain.dropWhile test).head?) : test l = false := by
  have left := List.head?_dropWhile_not test chain
  rwa [Option.mem_def.mp first] at left

/-- The released bottom part of a chain, the rest of it, and the elevation between them (R69). -/
theorem Sector.exists_released_below (k : Sector) :
    ∃ below above, k.live.chain = below ++ above ∧ (∀ l ∈ below, l.released = true) ∧
      (∀ l ∈ above.head?, l.released = false) ∧
      k.eRel = (below.getLast?.map Layer.top).getD k.live.hHard := by
  exact ⟨_, _, (List.takeWhile_append_dropWhile (p := Layer.released)).symm, fun l => List.mem_takeWhile_imp,
    fun l => not_of_mem_head?_dropWhile, (releaseWalk_eq ..).trans (fillOver_eq ..)⟩

end Sys2Proof.Machine

open Sys2Proof Sys2Proof.Machine

/-- Settles O27, by splitting the chain at the first layer that is not eligible. -/
theorem retirementRunsFromTheBottom : Obligations.RetirementRunsFromTheBottom := by
  unfold Obligations.RetirementRunsFromTheBottom
  intro s k
  refine ⟨fun idle => ?_, fun d defined based low => ?_⟩
  · unfold State.retireSector
    cases low : s.dLow k with
    | none => rfl
    | some d =>
      refine if_neg fun slip => ?_
      obtain ⟨defined, based⟩ := (Sector.inSlip_iff _).mp slip
      simp [defined, based, low] at idle
  · refine ⟨_, _, (List.takeWhile_append_dropWhile (p := retirable ((d : Int) - s.active.hf))).symm, fun l hl => ?_,
      fun l hl => ?_, ?_⟩
    · simpa [retirable] using List.mem_takeWhile_imp hl
    · simpa [retirable] using not_of_mem_head?_dropWhile hl
    · rw [← fillOver_eq]
      unfold State.retireSector
      rw [low]
      exact if_pos ((Sector.inSlip_iff _).mpr ⟨defined, based⟩)

/-- Settles O28: the layers that a run takes are released and low, so no derived value sees them go. -/
theorem retirementKeepsDerivedValues : Obligations.RetirementKeepsDerivedValues := by
  unfold Obligations.RetirementKeepsDerivedValues
  refine ⟨fun s k i => ?_, fun s k ks => ⟨rfl, rfl⟩, sectorPair_eq, fun j => j.live.state.levelBearing_iff, ?_⟩
  · simp
  intro s k
  have slip := Sector.inSlip_iff (s.sector k)
  refine ⟨fun d => ?_, fun d => ?_, fillOver_eq .., (s.sector k).exists_released_below, fun inSlip => ?_, fun out => ?_,
    ?_, ?_, ?_, fun stands => ?_⟩
  · rw [State.dLow_eq_some_iff, State.mem_sectorHeights, State.forall_sectorHeights]
  · rw [State.dHigh_eq_some_iff, State.mem_sectorHeights, State.forall_sectorHeights]
  · rw [State.dMax, State.fillStarved, slip.mpr inSlip]
    exact ⟨rfl, decide_eq_true_iff⟩
  · have off := Bool.eq_false_iff.mpr (mt slip.mp out)
    rw [State.dMax, State.fillStarved, off]
    exact ⟨rfl, rfl⟩
  · rw [State.overfill_iff, slip]
  · rw [State.lag_iff, slip]
  · rw [State.exposed_iff, slip]
  · rw [State.exposed_iff, slip]
    refine and_congr_right fun _ => exists_congr fun d => and_congr_right fun _ => ?_
    rw [exists_unreleased_below_iff stands.2.1]
    exact and_congr_right fun _ => lt_sub_iff_add_lt

end

section
/-! SUPPORT. LAYER PLACED and LAYER WITHDRAW (R28, R29, R32, R33). -/

namespace Sys2Proof.Machine

theorem State.definedSector?_eq_none_of_undefined {s : State} {item : Item}
    (h : ∀ k : SectorIx, item.toNat = k.val → (s.sector k).defined = false) : s.definedSector? item = none := by
  rcases Nat.lt_or_ge item.toNat 24 with named | unnamed
  · exact State.definedSector?_eq_none (k := ⟨item.toNat, named⟩) rfl (h _ rfl)
  · rw [State.definedSector?, index?_eq_none unnamed]
    rfl

theorem State.placeExposed_sectors (s : State) : s.placeExposed.sectors = s.sectors := by
  rcases s.placeExposed_cases with e | ⟨_, -, -, e⟩ <;> rw [e]

theorem State.placeExposed_freeList (s : State) : s.placeExposed.freeList = s.freeList := by
  rcases s.placeExposed_cases with e | ⟨_, -, -, e⟩ <;> rw [e]

/-! ### LAYER PLACED (R28, R29) -/

@[simp] theorem State.withLink_appendLayer (s : State) (l : Link) (k : SectorIx) (slot : Slot) (free : List Slot)
    (thickness : Nat) (c : Fin 4) :
    (s.withLink l).appendLayer k slot free thickness c = (s.appendLayer k slot free thickness c).withLink l := rfl

theorem serveLayerPlaced_linkBlind (item : Item) (payload : List Byte) : LinkBlind (serveLayerPlaced item payload) := by
  intro s l
  unfold serveLayerPlaced
  rw [State.withLink_definedSector?]
  cases s.definedSector? item with
  | none => rfl
  | some k =>
    refine ite_withLink Iff.rfl rfl (ite_withLink Iff.rfl rfl ?_)
    cases index? 4 (u8At payload 2) with
    | none => rfl
    | some c =>
      refine ite_withLink Iff.rfl rfl (ite_withLink Iff.rfl rfl ?_)
      have pool : (s.withLink l).freeList = s.freeList := rfl
      rw [pool]
      cases s.freeList with
      | nil => rfl
      | cons slot free =>
        simp only [State.withLink_appendLayer, State.withLink_placeExposed, State.withLink_commit]
        rfl

/-- An accepted placement lengthens the chain by one layer. -/
theorem State.appendLayer_chain_length (s : State) (k : SectorIx) (slot : Slot) (free : List Slot) (thickness : Nat)
    (c : Fin 4) :
    ((s.appendLayer k slot free thickness c).placeExposed.commit.sector k).live.chain.length =
      (s.sector k).live.chain.length + 1 := by
  have sector : (s.appendLayer k slot free thickness c).sector k = _ := (s.sector_setSector k k _).trans (if_pos rfl)
  rw [State.sector, State.commit_sectors, State.placeExposed_sectors]
  exact (congrArg (fun r : Sector => r.live.chain.length) sector).trans List.length_append

theorem State.appendLayer_freeList (s : State) (k : SectorIx) (slot : Slot) (free : List Slot) (thickness : Nat)
    (c : Fin 4) : (s.appendLayer k slot free thickness c).placeExposed.commit.freeList = free :=
  State.placeExposed_freeList _

section Placed

variable {s : State} {item : Item} {k : SectorIx} {hi lo mix : Byte}

theorem serveLayerPlaced_bad_item (h : s.definedSector? item = none) (payload : List Byte) :
    serveLayerPlaced item payload s = (s, .refuse .item item.toNat) := by
  simp only [serveLayerPlaced, h]

/-- The tests of R28 in their order, and the placement (R29). -/
theorem serveLayerPlaced_of_sector (h : s.definedSector? item = some k) :
    serveLayerPlaced item [hi, lo, mix] s =
      if (s.sector k).live.based = false then (s, .refuse .mode 0)
      else if hi.toNat * 256 + lo.toNat < 200 ∨ 4000 < hi.toNat * 256 + lo.toNat then (s, .refuse .range 1)
      else match index? 4 mix.toNat with
        | none => (s, .refuse .range 2)
        | some c =>
          if 2000000 < (s.sector k).fill + (hi.toNat * 256 + lo.toNat) then (s, .refuse .range 3)
          else if 16 ≤ (s.sector k).live.chain.length then (s, .refuse .full 1)
          else match s.freeList with
            | [] => (s, .refuse .full 2)
            | slot :: free =>
              let u := (s.appendLayer k slot free (hi.toNat * 256 + lo.toNat) c).placeExposed.commit
              (u, .accept (be1 slot.val ++ be4 (s.sector k).fill ++
                be4 ((s.sector k).fill + (hi.toNat * 256 + lo.toNat)) ++ be1 ((s.sector k).live.chain.length + 1) ++
                be1 free.length ++ be1 (u.sectorFlags k))) := by
  have mixClass : u8At [hi, lo, mix] 2 = mix.toNat := rfl
  have thickness : u16At [hi, lo, mix] 0 = hi.toNat * 256 + lo.toNat := rfl
  simp only [serveLayerPlaced, h, mixClass, thickness, Bool.not_eq_true',
    State.appendLayer_chain_length, State.appendLayer_freeList] <;> rfl

end Placed

/-! ### LAYER WITHDRAW (R32, R33) -/

theorem serveLayerWithdraw_linkBlind (item : Item) : LinkBlind (serveLayerWithdraw item) := by
  intro s l
  unfold serveLayerWithdraw
  rw [State.withLink_definedSector?]
  cases s.definedSector? item with
  | none => rfl
  | some k =>
    simp only [State.withLink_sector]
    cases (s.sector k).live.chain.getLast? with
    | none => rfl
    | some m => exact ite_withLink Iff.rfl rfl (ite_withLink Iff.rfl rfl rfl)

theorem State.withdrawLayer_chain_length (s : State) (k : SectorIx) (l : Layer) :
    ((s.withdrawLayer k l).commit.sector k).live.chain.length = (s.sector k).live.chain.length - 1 := by
  have sector : (s.withdrawLayer k l).commit.sector k = _ := (s.sector_setSector k k _).trans (if_pos rfl)
  exact (congrArg (fun r : Sector => r.live.chain.length) sector).trans List.length_dropLast

section Withdrawn

variable {s : State} {item : Item} {k : SectorIx}

theorem serveLayerWithdraw_bad_item (h : s.definedSector? item = none) :
    serveLayerWithdraw item s = (s, .refuse .item item.toNat) := by
  simp only [serveLayerWithdraw, h]

theorem serveLayerWithdraw_of_empty (h : s.definedSector? item = some k) (empty : (s.sector k).live.chain = []) :
    serveLayerWithdraw item s = (s, .refuse .state 1) := by
  simp only [serveLayerWithdraw, h, empty, List.getLast?_nil]

theorem serveLayerWithdraw_of_top (h : s.definedSector? item = some k) {below : List Layer} {l : Layer}
    (chain : (s.sector k).live.chain = below ++ [l]) :
    serveLayerWithdraw item s =
      if l.released = true then (s, .refuse .state 2)
      else if 10 ≤ l.age then (s, .refuse .state 3)
      else ((s.withdrawLayer k l).commit, .accept (be1 l.slot.val ++ be4 l.base ++ be4 l.top ++ be1 below.length ++
        be2 (s.freeList.length + 1))) := by
  have left : ((s.withdrawLayer k l).commit.sector k).live.chain.length = below.length := by
    rw [State.withdrawLayer_chain_length, chain, List.length_append]
    rfl
  simp only [serveLayerWithdraw, h, chain, List.getLast?_concat, left]
  rfl

end Withdrawn

/-! ### The feed may send each of them -/

section Answers

variable {item : Item} {s u : State} {reply : Reply} {a : Answer}

theorem layerPlaced_answers {hi lo mix : Byte} (hears : s.Hears .feed)
    (served : serveLayerPlaced item [hi, lo, mix] s = (u, reply)) (answer : reply.answer? 0x30 = some a) :
    Answered (.layerPlaced .feed item [hi, lo, mix]) .feed a s u :=
  request_answers (serveLayerPlaced_linkBlind item _) hears rfl rfl served answer

theorem layerWithdraw_answers (hears : s.Hears .feed) (served : serveLayerWithdraw item s = (u, reply))
    (answer : reply.answer? 0x32 = some a) : Answered (.layerWithdraw .feed item []) .feed a s u :=
  request_answers (serveLayerWithdraw_linkBlind item) hears rfl rfl served answer

end Answers

end Sys2Proof.Machine

open Sys2Proof Sys2Proof.Machine

/-- Settles O25: the tests of R28 in their order, then the deck that R29 leaves. -/
theorem layerPlacedAppendsALayer : Obligations.LayerPlacedAppendsALayer := by
  unfold Obligations.LayerPlacedAppendsALayer
  refine ⟨fun s item hi lo mix hears => ⟨fun undef => ?_, fun k hitem defined => ?_⟩, ?_⟩
  · exact layerPlaced_answers hears (serveLayerPlaced_bad_item (State.definedSector?_eq_none_of_undefined undef) _) rfl
  · have named := State.definedSector?_eq_some hitem defined
    have refused {code : RefuseCode} {detail : Nat}
        (served : serveLayerPlaced item [hi, lo, mix] s = (s, .refuse code detail)) :
        Refused (.layerPlaced .feed item [hi, lo, mix]) .feed 0x30 code.code detail s :=
      layerPlaced_answers hears served rfl
    have tests := serveLayerPlaced_of_sector (hi := hi) (lo := lo) (mix := mix) named
    refine ⟨fun unbased => refused (code := .mode) ?_, fun based => ?_⟩
    · rw [tests, if_pos unbased]
    rw [if_neg (by simp [based])] at tests
    refine ⟨fun range => refused (code := .range) ?_, fun thick thin => ?_⟩
    · rw [tests, if_pos range]
    rw [if_neg (by omega)] at tests
    refine ⟨fun high => refused (code := .range) ?_, fun low => ?_⟩
    · rw [tests, index?_eq_none high]
    rw [index?_eq_some (i := ⟨mix.toNat, by omega⟩) rfl] at tests
    refine ⟨fun tall => refused (code := .range) (tests.trans (if_pos tall)), fun fits => ?_⟩
    refine ⟨fun full => refused (code := .full) ?_, fun short pool => refused (code := .full) ?_⟩
    · exact tests.trans ((if_neg fits.not_gt).trans (if_pos full))
    · rw [pool] at tests
      exact tests.trans ((if_neg fits.not_gt).trans (if_neg short.not_ge))
  · intro s item k hi lo mix c slot free hears hitem defined based v fill thickness thick thin hc fits short pool
    have tests := serveLayerPlaced_of_sector (hi := hi) (lo := lo) (mix := mix)
      (State.definedSector?_eq_some hitem defined)
    rw [if_neg (by simp [based]), if_neg (by omega), index?_eq_some hc, pool] at tests
    exact layerPlaced_answers hears (tests.trans ((if_neg fits.not_gt).trans (if_neg short.not_ge))) rfl

/-- Settles O26: the tests of R32 in their order, then the deck that R33 leaves. -/
theorem layerWithdrawRemovesTheTop : Obligations.LayerWithdrawRemovesTheTop := by
  unfold Obligations.LayerWithdrawRemovesTheTop
  refine ⟨fun s item hears => ⟨fun undef => ?_, fun k hitem defined => ⟨fun empty => ?_, fun below l chain => ?_⟩⟩,
    fun s item k below l hears hitem defined chain fresh young => ?_⟩
  · exact layerWithdraw_answers hears
      (serveLayerWithdraw_bad_item (State.definedSector?_eq_none_of_undefined undef)) rfl
  · exact layerWithdraw_answers hears
      (serveLayerWithdraw_of_empty (State.definedSector?_eq_some hitem defined) empty) rfl
  · have tests := serveLayerWithdraw_of_top (State.definedSector?_eq_some hitem defined) chain
    refine ⟨fun released => ?_, fun fresh old => ?_⟩
    · rw [if_pos released] at tests
      exact layerWithdraw_answers hears tests rfl
    · rw [if_neg (by simp [fresh]), if_pos old] at tests
      exact layerWithdraw_answers hears tests rfl
  · have tests := serveLayerWithdraw_of_top (State.definedSector?_eq_some hitem defined) chain
    rw [if_neg (by simp [fresh]), if_neg young.not_ge] at tests
    have left : (s.withdrawLayer k l).commit = (({ s with
        freeList := l.slot :: s.freeList
        counters := { s.counters with layersWithdrawn := sat32 (s.counters.layersWithdrawn + 1) } }.setSectorLive k
          { (s.sector k).live with chain := below }).commit) := by
      rw [← List.dropLast_concat (l₁ := below) (b := l), ← chain]
      rfl
    exact layerWithdraw_answers hears (left ▸ tests) rfl

end

section
/-! SUPPORT. FEED ADVICE (R41): the candidates, and the fold that picks the best of them. -/

namespace Sys2Proof.Machine

variable {s : State}

theorem State.considered_iff (s : State) (k : SectorIx) :
    s.considered k = true ↔
      (s.sector k).defined = true ∧ (s.sector k).live.based = true ∧ ∃ d, s.dLow k = some d := by
  rw [State.considered, Bool.and_eq_true, Sector.inSlip_iff, Option.isSome_iff_exists, and_assoc]

/-! ### The candidates -/

/-- A candidate of R41. -/
def State.feedCandidate (s : State) (k : SectorIx) : Bool :=
  !s.freeList.isEmpty && s.considered k && decide (200 ≤ s.feedRoom k) && decide ((s.sector k).live.chain.length < 16)

theorem State.feedCandidates_eq (s : State) : s.feedCandidates = (List.finRange 24).filter s.feedCandidate := by
  unfold State.feedCandidates State.consideredSectors
  rw [List.filter_filter]
  cases pool : s.freeList.isEmpty with
  | true => simp [State.feedCandidate, pool]
  | false =>
    refine List.filter_congr fun k _ => ?_
    simp only [State.feedCandidate, pool, Bool.not_false, Bool.true_and, Bool.and_assoc, Bool.and_comm (s.considered k)]

theorem State.feedPreferred_eq (s : State) :
    s.feedPreferred =
      if s.feedCandidates.any s.fillStarved then s.feedCandidates.filter s.fillStarved else s.feedCandidates := by
  have none : (s.feedCandidates.filter s.fillStarved).isEmpty = !s.feedCandidates.any s.fillStarved := by
    rw [Bool.eq_iff_iff]
    simp [List.filter_eq_nil_iff]
  rw [State.feedPreferred, none]
  cases s.feedCandidates.any s.fillStarved <;> rfl

/-- The candidates left stand in ascending order. -/
theorem State.feedPreferred_pairwise (s : State) : s.feedPreferred.Pairwise (· < ·) := by
  have candidates : s.feedCandidates.Pairwise (· < ·) := by
    rw [State.feedCandidates_eq]
    exact (List.pairwise_lt_finRange 24).filter _
  rw [State.feedPreferred_eq]
  split
  · exact candidates.filter _
  · exact candidates

/-! ### The winner -/

/-- Steps 2 and 3 of R41 at one candidate: it takes the place of one with less room. -/
def State.betterFeed (s : State) : Option SectorIx → SectorIx → Option SectorIx
  | none, k => some k
  | some b, k => if s.feedRoom b < s.feedRoom k then some k else some b

theorem State.feedWinner_eq (s : State) : s.feedWinner = s.feedPreferred.foldl s.betterFeed none := by
  unfold State.feedWinner
  congr 1
  funext best k
  cases best <;> rfl

/-- No candidate without more room takes the place of the one that leads. -/
theorem State.foldl_betterFeed_stays {b : SectorIx} {ks : List SectorIx}
    (least : ∀ k ∈ ks, s.feedRoom k ≤ s.feedRoom b) : ks.foldl s.betterFeed (some b) = some b := by
  induction ks with
  | nil => rfl
  | cons k ks ih =>
    obtain ⟨first, others⟩ := List.forall_mem_cons.mp least
    rw [List.foldl_cons, State.betterFeed, if_neg first.not_gt, ih others]

/-- The one that leads is the first one or a candidate passed. -/
theorem State.foldl_betterFeed_mem {b : SectorIx} (ks : List SectorIx) (best : Option SectorIx)
    (leads : ks.foldl s.betterFeed best = some b) : best = some b ∨ b ∈ ks := by
  induction ks generalizing best with
  | nil => exact .inl leads
  | cons k ks ih =>
    obtain first | later := ih _ leads
    · cases best with
      | none => exact .inr (Option.some.inj first ▸ List.mem_cons_self)
      | some a =>
        rw [State.betterFeed] at first
        split at first
        · exact .inr (Option.some.inj first ▸ List.mem_cons_self)
        · exact .inl first
    · exact .inr (List.mem_cons_of_mem _ later)

/-- The winner has the largest room, and the lowest index among equals. -/
theorem State.feedWinner_eq_some {w : SectorIx} (left : w ∈ s.feedPreferred)
    (best : ∀ k ∈ s.feedPreferred, s.feedRoom k < s.feedRoom w ∨ s.feedRoom k = s.feedRoom w ∧ w ≤ k) :
    s.feedWinner = some w := by
  obtain ⟨before, after, parts⟩ := List.append_of_mem left
  have ascending := s.feedPreferred_pairwise
  rw [parts] at best ascending
  have behind : ∀ k ∈ before, s.feedRoom k < s.feedRoom w := fun k hk => by
    have below : k < w := (List.pairwise_append.mp ascending).2.2 k hk w List.mem_cons_self
    exact (best k (List.mem_append_left _ hk)).resolve_right fun ⟨_, above⟩ => below.not_ge above
  have takes : s.betterFeed (before.foldl s.betterFeed none) w = some w := by
    cases leads : before.foldl s.betterFeed none with
    | none => rfl
    | some b =>
      have passed := (State.foldl_betterFeed_mem before none leads).resolve_left nofun
      exact if_pos (behind b passed)
  rw [State.feedWinner_eq, parts, List.foldl_append, List.foldl_cons, takes]
  refine State.foldl_betterFeed_stays fun k hk => ?_
  exact (best k (List.mem_append_right _ (List.mem_cons_of_mem _ hk))).elim le_of_lt fun equal => equal.1.le

theorem State.feedWinner_eq_none (none : s.feedCandidates = []) : s.feedWinner = .none := by
  rw [State.feedWinner_eq, State.feedPreferred_eq, none]
  rfl

/-! ### The answer -/

theorem serveFeedAdvice_linkBlind : LinkBlind serveFeedAdvice := fun _ _ => rfl

theorem feedAdvice_answers {item : Item} {a : Answer} (hears : s.Hears .feed)
    (answer : (Reply.accept s.adviceBytes).answer? 0x31 = some a) : Answered (.feedAdvice .feed item []) .feed a s s :=
  request_answers serveFeedAdvice_linkBlind hears rfl rfl rfl answer

end Sys2Proof.Machine

open Sys2Proof Sys2Proof.Machine

/-- Settles O17: the candidates stand in ascending order, so the first with the largest room keeps the lead. -/
theorem feedAdviceNamesTheBestSector : Obligations.FeedAdviceNamesTheBestSector := by
  unfold Obligations.FeedAdviceNamesTheBestSector
  refine ⟨fun s k => ⟨s.considered_iff k, fun d low => ?_⟩, fun item s hears => ?_⟩
  · rw [State.feedRoom, low]
  intro candidate all left counts
  have hall : s.feedCandidates = all := s.feedCandidates_eq
  have hleft : s.feedPreferred = left := by rw [State.feedPreferred_eq, hall]
  refine ⟨fun none => feedAdvice_answers hears ?_, fun w hw best => feedAdvice_answers hears ?_⟩
  · have why : (if s.freeList.isEmpty then 1 else 2) = if s.freeList = [] then 1 else 2 := by simp
    rw [State.adviceBytes, State.feedWinner_eq_none (hall.trans none), hall, why]
    rfl
  · rw [← hleft] at hw best
    rw [State.adviceBytes, State.feedWinner_eq_some hw best, hall]
    rfl

end

section
/-! SUPPORT. The reported average of a probe, PROBE READ and PLAN READ (R52, R54, R132, R139, R140). -/

namespace Sys2Proof.Machine

/-! ### The reported average (R52) -/

theorem Probe.average_of_good {p : Probe} (good : p.state = .good) : p.average = p.sum / 4 := by
  rw [Probe.average, good]

theorem Probe.average_of_not_good {p : Probe} (h : p.state = .new ∨ p.state = .fault) : p.average = -32768 := by
  obtain new | fault := h
  · rw [Probe.average, new]
  · rw [Probe.average, fault]

/-! ### The read rules do not see the link -/

theorem serveProbeRead_linkBlind (item : Item) : LinkBlind (serveProbeRead item) := by
  intro s l
  unfold serveProbeRead
  cases index? 12 item.toNat <;> rfl

theorem servePlanReadState_linkBlind : LinkBlind servePlanReadState := fun _ _ => rfl

theorem servePlanRead_linkBlind (item : Item) : LinkBlind (servePlanRead item) := by
  intro s l
  refine ite_withLink Iff.rfl rfl ?_
  cases Param.ofNumber? item.toNat <;> rfl

section Answers

variable {p : Port} {item : Item} {s u : State} {reply : Reply} {a : Answer}

theorem probeRead_answers (hears : s.Hears p) (served : serveProbeRead item s = (u, reply))
    (answer : reply.answer? 0x14 = some a) : Answered (.probeRead p item []) p a s u :=
  request_answers (serveProbeRead_linkBlind item) hears rfl rfl served answer

theorem planRead_answers (hears : s.Hears p) (served : servePlanRead item s = (u, reply))
    (answer : reply.answer? 0x15 = some a) : Answered (.planRead p item []) p a s u :=
  request_answers (servePlanRead_linkBlind item) hears rfl rfl served answer

theorem planReadState_answers (hears : s.Hears p) (answer : (Reply.accept s.planStateBytes).answer? 0x15 = some a) :
    Answered (.planReadState p []) p a s s :=
  request_answers servePlanReadState_linkBlind hears rfl rfl rfl answer

end Answers

/-! ### What the read rules reply -/

theorem serveProbeRead_of_probe {item : Item} {n : ProbeIx} (s : State) (h : item.toNat = n.val) :
    serveProbeRead item s = (s, .accept (s.probeBytes n)) := by
  rw [serveProbeRead, index?_eq_some h]

theorem serveProbeRead_bad_item {item : Item} (s : State) (h : 12 ≤ item.toNat) :
    serveProbeRead item s = (s, .refuse .item item.toNat) := by
  rw [serveProbeRead, index?_eq_none h]

theorem Param.ofNumber?_eq_some {n : Param} {k : Nat} (h : k = n.val + 1) : Param.ofNumber? k = some n := by
  subst h
  exact (if_neg (Nat.succ_ne_zero _)).trans (index?_eq_some rfl)

theorem Param.ofNumber?_eq_none {k : Nat} (h : 25 < k) : Param.ofNumber? k = none :=
  (if_neg (by omega)).trans (index?_eq_none (by omega))

theorem servePlanRead_of_param {item : Item} {n : Param} (s : State) (h : item.toNat = n.val + 1) :
    servePlanRead item s = (s, .accept (s.planBytes n)) := by
  have item_ne : item ≠ 0 := by
    rintro rfl
    cases h
  rw [servePlanRead, if_neg item_ne, Param.ofNumber?_eq_some h]

theorem servePlanRead_bad_item {item : Item} (s : State) (h : 25 < item.toNat) :
    servePlanRead item s = (s, .refuse .item item.toNat) := by
  have item_ne : item ≠ 0 := by
    rintro rfl
    cases h
  rw [servePlanRead, if_neg item_ne, Param.ofNumber?_eq_none h]

/-! ### The state of the Plan Unit (R132, R140) -/

theorem boolByte_bne (x y : Int) : boolByte (x != y) = be1 (if x = y then 0 else 1) := by
  by_cases h : x = y <;> simp [boolByte, flag, h]

theorem Plan.differences_eq (p q : Plan) :
    p.differences q = ((List.finRange 25).filter fun n => decide (p.get n ≠ q.get n)).length := by
  refine congrArg List.length (List.filter_congr fun n _ => ?_)
  simp [bne, beq_eq_decide]

/-- The number, counted from `n`, of the first test that fails, or 0. -/
def firstFalse (n : Nat) : List Bool → Nat
  | [] => 0
  | ok :: rest => if ok then firstFalse (n + 1) rest else n

theorem firstFalse_eq_findIdx? (n : Nat) (checks : List Bool) :
    firstFalse n checks = match checks.findIdx? (fun ok => !ok) with | some i => i + n | none => 0 := by
  induction checks generalizing n with
  | nil => rfl
  | cons ok rest ih =>
    cases ok with
    | false => simp [firstFalse, List.findIdx?_cons]
    | true =>
      rw [firstFalse, if_pos rfl, ih, List.findIdx?_cons, Bool.not_true, if_neg Bool.false_ne_true]
      cases rest.findIdx? (fun ok => !ok) with
      | none => rfl
      | some i => exact (show i + (n + 1) = i + 1 + n by omega)

/-- The combined checks are made in the order of R132. -/
theorem Plan.firstFailed_eq (p : Plan) :
    p.firstFailed = firstFalse 1
      [decide (p.lnom ≤ p.tol), decide (p.crawlStroke ≤ p.lnom), decide (p.emb + p.freeboard + 2000 ≤ p.hf),
        decide (p.rel 0 + 10000 ≤ p.stk 0), decide (p.rel 1 + 10000 ≤ p.stk 1), decide (p.rel 2 + 10000 ≤ p.stk 2),
        decide (p.rel 3 + 10000 ≤ p.stk 3)] := by
  have third : ((p.emb : Int) + p.freeboard ≤ (p.hf : Int) - 2000) ↔ p.emb + p.freeboard + 2000 ≤ p.hf := by omega
  simp only [Plan.firstFailed, third, firstFalse, decide_eq_true_eq, ite_not, ge_iff_le]

end Sys2Proof.Machine

open Sys2Proof Sys2Proof.Machine

/-- Settles O30: a division by 4 rounds down, and a mean lies between the bounds of its terms. -/
theorem averageRoundsDown : Obligations.AverageRoundsDown := by
  unfold Obligations.AverageRoundsDown
  refine fun p => ⟨fun good => ?_, Probe.average_of_not_good⟩
  rw [Probe.average_of_good good, Probe.sum]
  refine ⟨by omega, by omega, fun bounds => ?_⟩
  have first : -300 ≤ p.window[0] ∧ p.window[0] ≤ 800 := bounds 0
  have second : -300 ≤ p.window[1] ∧ p.window[1] ≤ 800 := bounds 1
  have third : -300 ≤ p.window[2] ∧ p.window[2] ≤ 800 := bounds 2
  have fourth : -300 ≤ p.window[3] ∧ p.window[3] ≤ 800 := bounds 3
  omega

/-- Settles O14: each read answers the bytes of its table, and the failed check is the first in the order of R132. -/
theorem probeAndPlanReadsAnswer : Obligations.ProbeAndPlanReadsAnswer := by
  unfold Obligations.ProbeAndPlanReadsAnswer
  refine ⟨fun p item s hears => ⟨fun bad => ?_, fun bad => ?_⟩,
    fun p item s hears => ⟨fun n hn => ?_, fun n hn => ?_, ?_⟩⟩
  · exact probeRead_answers hears (serveProbeRead_bad_item s bad) rfl
  · exact planRead_answers hears (servePlanRead_bad_item s bad) rfl
  · refine probeRead_answers hears (serveProbeRead_of_probe s hn) ?_
    have state : (s.probe n).state.code = match (s.probe n).state with | .new => 0 | .good => 1 | .fault => 2 := by
      cases (s.probe n).state <;> rfl
    rw [State.probeBytes, state]
    rfl
  · refine planRead_answers hears (servePlanRead_of_param s hn) ?_
    rw [State.planBytes, boolByte_bne]
    rfl
  · refine planReadState_answers hears ?_
    rw [State.planStateBytes, Plan.differences_eq, Plan.firstFailed_eq, firstFalse_eq_findIdx?]
    rfl

end

section
/-! SUPPORT. A sample by the rows of section 3.2, one lemma for each row (R47 to R51), and the battery state (R174). -/

namespace Sys2Proof.Machine

variable {p : Probe} {x : Int}

/-- The record once a sample is noted, before its row acts (R47). -/
def Probe.seen (p : Probe) (x : Int) : Probe :=
  { p with lastSample := some x, lastValid := decide (-300 ≤ x ∧ x ≤ 800) }

theorem validSample_eq (x : Int) : validSample x = decide (-300 ≤ x ∧ x ≤ 800) := (Bool.decide_and ..).symm

theorem Probe.take_of_valid (valid : -300 ≤ x ∧ x ≤ 800) : p.take x = (p.seen x).takeValid x := by
  rw [Probe.take, validSample_eq]
  exact if_pos (decide_eq_true valid)

theorem Probe.take_of_invalid (invalid : ¬(-300 ≤ x ∧ x ≤ 800)) : p.take x = (p.seen x).takeInvalid := by
  rw [Probe.take, validSample_eq]
  exact if_neg (by simpa using invalid)

/-! ### A valid sample (R48, R49, R51) -/

theorem Probe.takeValid_of_new (new : p.state = .new) :
    p.takeValid x = { p.fill x with invalidRun := 0, state := .good } := by
  rw [Probe.takeValid, new]

theorem Probe.takeValid_of_good (good : p.state = .good) : p.takeValid x = { p.enter x with invalidRun := 0 } := by
  rw [Probe.takeValid, good]

theorem Probe.takeValid_first (fault : p.state = .fault) (run : p.recoveryRun = 0) :
    p.takeValid x = { p.fill x with recoveryRun := 1, invalidRun := 0 } := by
  rw [Probe.takeValid, fault]
  exact if_pos run

theorem Probe.takeValid_more (fault : p.state = .fault) (run : p.recoveryRun = 1 ∨ p.recoveryRun = 2) :
    p.takeValid x = { p.enter x with recoveryRun := p.recoveryRun + 1, invalidRun := 0 } := by
  rw [Probe.takeValid, fault]
  exact (if_neg (by omega)).trans (if_pos (by omega))

theorem Probe.takeValid_last (fault : p.state = .fault) (run : p.recoveryRun = 3) :
    p.takeValid x = { p.enter x with recoveryRun := 0, invalidRun := 0, state := .good } := by
  rw [Probe.takeValid, fault]
  exact (if_neg (by omega)).trans (if_neg (by omega))

/-! ### An invalid sample (R50, R51) -/

/-- Outside FAULT the invalid run decides. -/
theorem Probe.takeInvalid_of_ne_fault (working : p.state ≠ .fault) :
    p.takeInvalid =
      if p.invalidRun < 2 then { p with invalidRun := p.invalidRun + 1 }
      else { p with invalidRun := 3, state := .fault, recoveryRun := 0, faultCount := sat16 (p.faultCount + 1) } := by
  unfold Probe.takeInvalid
  cases state : p.state with
  | new => rfl
  | good => rfl
  | fault => exact absurd state working

theorem Probe.takeInvalid_few (working : p.state ≠ .fault) (run : p.invalidRun ≤ 1) :
    p.takeInvalid = { p with invalidRun := p.invalidRun + 1 } :=
  (Probe.takeInvalid_of_ne_fault working).trans (if_pos (Nat.lt_succ_of_le run))

theorem Probe.takeInvalid_third (working : p.state ≠ .fault) (run : p.invalidRun = 2) :
    p.takeInvalid =
      { p with invalidRun := 3, state := .fault, recoveryRun := 0, faultCount := sat16 (p.faultCount + 1) } :=
  (Probe.takeInvalid_of_ne_fault working).trans (if_neg (Nat.not_lt.mpr run.ge))

theorem Probe.takeInvalid_of_fault (fault : p.state = .fault) :
    p.takeInvalid = { p with recoveryRun := 0, invalidRun := 3 } := by
  rw [Probe.takeInvalid, fault]

/-! ### The battery -/

theorem batteryAfter_eq (low : Bool) (millivolts : Nat) :
    batteryAfter low millivolts = if millivolts < 2700 then true else if millivolts < 2900 then low else false := by
  unfold batteryAfter
  rcases Nat.lt_or_ge millivolts 2900 with below | above
  · rw [if_neg (Nat.not_le.mpr below), if_pos below]
  · rw [if_pos above, if_neg (Nat.not_lt.mpr above)]

/-! ### The expiry -/

theorem execProbeSampleExpiry_of_running {s : State} (running : s.phase = .running) (timer : s.sampleTimer = true)
    (samples : Vector Int 12) (battery : Nat) :
    execProbeSampleExpiry samples battery s = .next (s.sampleProbes samples battery).settle := by
  rw [execProbeSampleExpiry, whenRunning_running s running, if_pos timer]

end Sys2Proof.Machine

open Sys2Proof Sys2Proof.Machine

/-- Settles O29, row by row. -/
theorem samplesActOnTheirProbes : Obligations.SamplesActOnTheirProbes := by
  unfold Obligations.SamplesActOnTheirProbes
  intro s samples battery running timer
  refine ⟨Vector.ofFn fun n => (s.probe n).take samples[n], ?_, fun n => ?_⟩
  · rw [← batteryAfter_eq]
    exact execProbeSampleExpiry_of_running running timer samples battery
  · have record : (Vector.ofFn fun n => (s.probe n).take samples[n])[n] = (s.probe n).take samples[n] := by simp
    rw [record]
    refine ⟨fun new valid => ?_, fun working invalid run => ?_, fun working invalid run => ?_, fun good valid => ?_,
      fun fault valid run => ?_, fun fault valid run => ?_, fun fault valid run => ?_, fun fault invalid => ?_⟩
    · exact (Probe.take_of_valid valid).trans (Probe.takeValid_of_new new)
    · exact (Probe.take_of_invalid invalid).trans (Probe.takeInvalid_few working run)
    · exact (Probe.take_of_invalid invalid).trans (Probe.takeInvalid_third working run)
    · exact (Probe.take_of_valid valid).trans (Probe.takeValid_of_good good)
    · exact (Probe.take_of_valid valid).trans (Probe.takeValid_first fault run)
    · exact (Probe.take_of_valid valid).trans (Probe.takeValid_more fault run)
    · exact (Probe.take_of_valid valid).trans (Probe.takeValid_last fault run)
    · exact (Probe.take_of_invalid invalid).trans (Probe.takeInvalid_of_fault fault)

end

section
/-! SUPPORT. A maturity interval (R56 to R59, R62): what a delivery makes of its sector, and that the deliveries of an
interval do not meet, so that each finds its sector as the interval found it. -/

namespace Sys2Proof.Machine

/-! ### What a delivery of `n` makes of a sector whose lowest level-bearing jack stands at `low` -/

section Delivery

variable (r : Sector) (plan : Plan) (n : Nat) (low : Option Nat)

/-- The chain with every layer matured, aged and flagged again (R59). -/
def Sector.aged : List Layer := r.live.chain.map fun l => (l.mature n).refresh plan

/-- Some layer becomes released (R59). -/
def Sector.releases : Bool := r.live.chain.any fun l => (l.mature n).becomesReleased plan

/-- Retirement runs: a layer became released, and the sector is one that retires (R36, R59). -/
abbrev Sector.Retires : Prop :=
  r.served = true ∧ r.releases plan n = true ∧ r.live.based = true ∧ low.isSome = true

/-- The layers that the run takes (R36). -/
def Sector.leaving : List Layer :=
  match low with
  | some d =>
    if r.served = true ∧ r.releases plan n = true ∧ r.live.based = true then
      (r.aged plan n).takeWhile (retirable ((d : Int) - plan.hf))
    else []
  | none => []

/-- The record that the delivery leaves. -/
def Sector.delivered : Sector :=
  { r with live :=
    { r.live with
      chain := (r.aged plan n).drop (r.leaving plan n low).length
      hHard := ((r.leaving plan n low).getLast?.map Layer.top).getD r.live.hHard
      retired := if r.Retires plan n low then sat16 (r.live.retired + (r.leaving plan n low).length)
        else r.live.retired } }

variable {r plan n low}

theorem Sector.leaving_of_retires {d : Nat} (runs : r.Retires plan n (some d)) :
    r.leaving plan n (some d) = (r.aged plan n).takeWhile (retirable ((d : Int) - plan.hf)) :=
  if_pos ⟨runs.1, runs.2.1, runs.2.2.1⟩

theorem Sector.leaving_of_not_retires (idle : ¬ r.Retires plan n low) : r.leaving plan n low = [] := by
  cases low with
  | none => rfl
  | some d => exact if_neg fun ⟨served, releases, based⟩ => idle ⟨served, releases, based, rfl⟩

theorem Sector.delivered_of_retires {d : Nat} (runs : r.Retires plan n (some d)) :
    r.delivered plan n (some d) =
      let gone := (r.aged plan n).takeWhile (retirable ((d : Int) - plan.hf))
      { r with live :=
        { r.live with
          chain := (r.aged plan n).dropWhile (retirable ((d : Int) - plan.hf))
          hHard := fillOver r.live.hHard gone
          retired := sat16 (r.live.retired + gone.length) } } := by
  have kept := List.drop_left (l₁ := (r.aged plan n).takeWhile (retirable ((d : Int) - plan.hf)))
    (l₂ := (r.aged plan n).dropWhile (retirable ((d : Int) - plan.hf)))
  rw [List.takeWhile_append_dropWhile] at kept
  rw [Sector.delivered, if_pos runs, Sector.leaving_of_retires runs, kept, ← fillOver_eq]

theorem Sector.delivered_of_not_retires (idle : ¬ r.Retires plan n low) :
    r.delivered plan n low = { r with live := { r.live with chain := r.aged plan n } } := by
  rw [Sector.delivered, if_neg idle, Sector.leaving_of_not_retires idle]
  rfl

end Delivery

/-! ### A delivery -/

variable {s u : State} {k : SectorIx}

/-- A count of layers retired (R161). -/
def DeckCounters.retire (c : DeckCounters) (n : Nat) : DeckCounters :=
  { c with layersRetired := sat32 (c.layersRetired + n) }

/-- One sector's record written, the slots of some layers given back, and the deck counters written. -/
def State.writeBack (s : State) (k : SectorIx) (r : Sector) (gone : List Layer) (c : DeckCounters) : State :=
  { s.setSector k r with freeList := (gone.map Layer.slot).reverse ++ s.freeList, counters := c }

theorem State.sector_writeBack (s : State) (i k : SectorIx) (r : Sector) (gone : List Layer) (c : DeckCounters) :
    (s.writeBack k r gone c).sector i = if i = k then r else s.sector i := s.sector_setSector i k r

theorem State.setSector_writeBack (s : State) (k : SectorIx) (r' r : Sector) (gone : List Layer) (c : DeckCounters) :
    (s.setSector k r').writeBack k r gone c = s.writeBack k r gone c := by
  have sectors : (s.sectors.set k.val r' k.isLt).set k.val r k.isLt = s.sectors.set k.val r k.isLt :=
    Vector.set_set ..
  simp only [State.writeBack, State.setSector, sectors]

theorem State.dLow_congr (jacks : u.jacks = s.jacks) (defined : (u.sector k).defined = (s.sector k).defined) :
    u.dLow k = s.dLow k := by
  rw [State.dLow, State.dLow, State.sectorHeights, State.sectorHeights, jacks, defined]

theorem State.retireSector_of_low {d : Nat} (low : s.dLow k = some d) (slip : (s.sector k).inSlip = true) :
    s.retireSector k =
      let v := (s.sector k).live
      let gone := v.chain.takeWhile (retirable ((d : Int) - s.active.hf))
      s.writeBack k
        { s.sector k with live := { v with
          hHard := fillOver v.hHard gone
          chain := v.chain.dropWhile (retirable ((d : Int) - s.active.hf))
          retired := sat16 (v.retired + gone.length) } }
        gone (s.counters.retire gone.length) := by
  rw [State.retireSector, low]
  exact if_pos slip

theorem State.retireSector_of_idle (idle : ¬((s.sector k).inSlip = true ∧ (s.dLow k).isSome = true)) :
    s.retireSector k = s := by
  rcases s.retireSector_cases k with e | ⟨d, low, slip, -⟩
  · exact e
  · exact absurd ⟨slip, low ▸ rfl⟩ idle

theorem Sector.inSlip_of_served {r : Sector} (served : r.served = true) : r.inSlip = r.live.based := by
  rw [Sector.served, Bool.and_eq_true] at served
  rw [Sector.inSlip, served.1, Bool.true_and]

/-- A delivery before any retirement: the record with its chain aged. -/
def Sector.withAged (r : Sector) (plan : Plan) (n : Nat) : Sector :=
  { r with live := { r.live with chain := r.aged plan n } }

theorem State.deliver_eq_withAged (s : State) (k : SectorIx) (n : Nat) :
    s.deliver k n =
      if (s.sector k).releases s.active n then
        (s.setSector k ((s.sector k).withAged s.active n)).retireSector k
      else s.setSector k ((s.sector k).withAged s.active n) := by
  unfold State.deliver
  simp only [List.map_map, List.any_map]
  rfl

/-- A delivery to a served sector writes its record, gives the slots taken back, and counts them. -/
theorem State.deliver_eq (s : State) (n : Nat) (served : (s.sector k).served = true) :
    s.deliver k n =
      s.writeBack k ((s.sector k).delivered s.active n (s.dLow k)) ((s.sector k).leaving s.active n (s.dLow k))
        (if (s.sector k).Retires s.active n (s.dLow k) then
          s.counters.retire ((s.sector k).leaving s.active n (s.dLow k)).length
        else s.counters) := by
  have sector : (s.setSector k ((s.sector k).withAged s.active n)).sector k = (s.sector k).withAged s.active n :=
    (s.sector_setSector k k _).trans (if_pos rfl)
  have heights : (s.setSector k ((s.sector k).withAged s.active n)).dLow k = s.dLow k :=
    State.dLow_congr rfl (by rw [sector, Sector.withAged])
  have slip : ((s.sector k).withAged s.active n).inSlip = (s.sector k).live.based :=
    Sector.inSlip_of_served (r := s.sector k) served
  rw [State.deliver_eq_withAged]
  by_cases runs : (s.sector k).Retires s.active n (s.dLow k)
  · have ⟨_, releases, based, isSome⟩ := runs
    obtain ⟨d, low⟩ := Option.isSome_iff_exists.mp isSome
    rw [if_pos releases, State.retireSector_of_low (heights.trans low) (by rw [sector, slip, based]), sector,
      State.setSector_writeBack, if_pos runs]
    rw [low] at runs ⊢
    rw [Sector.delivered_of_retires runs, Sector.leaving_of_retires runs]
    rfl
  · have aged : (s.sector k).releases s.active n = true →
        (s.setSector k ((s.sector k).withAged s.active n)).retireSector k =
          s.setSector k ((s.sector k).withAged s.active n) := fun releases => by
      refine State.retireSector_of_idle ?_
      rw [sector, slip, heights]
      exact fun ⟨based, low⟩ => runs ⟨served, releases, based, low⟩
    rw [ite_eq_right_iff.mpr aged, if_neg runs, Sector.delivered_of_not_retires runs,
      Sector.leaving_of_not_retires runs]
    rfl

/-! ### An interval -/

theorem sat32_add_sat32 (a b c : Nat) : sat32 (sat32 (a + b) + c) = sat32 (a + (b + c)) := by
  unfold sat32
  omega

/-- What `u` has of the deck `s` once the sectors `ks` have had their deliveries: `step` gives each its increment. -/
structure State.Matured (s : State) (step : SectorIx → Nat) (ks : List SectorIx) (u : State) : Prop where
  rest : u = { s with sectors := u.sectors, freeList := u.freeList, counters := u.counters }
  freeList : u.freeList =
    (ks.flatMap fun k => ((s.sector k).leaving s.active (step k) (s.dLow k)).map Layer.slot).reverse ++ s.freeList
  counters : u.counters = { s.counters with layersRetired := u.counters.layersRetired }
  layersRetired : s.counters.layersRetired ≤ 4294967295 →
    u.counters.layersRetired =
      sat32 (s.counters.layersRetired +
        (ks.map fun k => ((s.sector k).leaving s.active (step k) (s.dLow k)).length).sum)
  sector : ∀ k, u.sector k =
    if k ∈ ks ∧ (s.sector k).served = true then (s.sector k).delivered s.active (step k) (s.dLow k) else s.sector k

variable {step : SectorIx → Nat} {ks : List SectorIx}

theorem State.Matured.nil (s : State) (step : SectorIx → Nat) : s.Matured step [] s where
  rest := rfl
  freeList := rfl
  counters := rfl
  layersRetired low := (Nat.min_eq_left low).symm
  sector _ := (if_neg fun ⟨mem, _⟩ => nomatch mem).symm

theorem State.Matured.active (h : s.Matured step ks u) : u.active = s.active := by rw [h.rest]

theorem State.Matured.probe (h : s.Matured step ks u) (k : SectorIx) : (u.sector k).probe = (s.sector k).probe := by
  rw [h.sector]
  split <;> rfl

theorem State.Matured.sector_of_not_mem (h : s.Matured step ks u) (new : k ∉ ks) : u.sector k = s.sector k :=
  (h.sector k).trans (if_neg fun ⟨mem, _⟩ => new mem)

theorem State.Matured.dLow_of_not_mem (h : s.Matured step ks u) (new : k ∉ ks) : u.dLow k = s.dLow k :=
  State.dLow_congr (by rw [h.rest]) (congrArg Sector.defined (h.sector_of_not_mem new))

/-- A sector that is not served has no delivery. -/
theorem State.Matured.skip (h : s.Matured step ks u) (idle : ¬ (s.sector k).served = true) :
    s.Matured step (ks ++ [k]) u where
  rest := h.rest
  freeList := by
    rw [List.flatMap_append, List.flatMap_singleton, Sector.leaving_of_not_retires fun runs => idle runs.1,
      List.map_nil, List.append_nil]
    exact h.freeList
  counters := h.counters
  layersRetired low := by
    rw [List.map_append, List.sum_append, List.map_singleton, Sector.leaving_of_not_retires fun runs => idle runs.1]
    exact h.layersRetired low
  sector i := by
    rw [h.sector i]
    refine if_congr (and_congr_left fun served => ?_) rfl rfl
    rw [List.mem_append, List.mem_singleton]
    exact (or_iff_left fun self : i = k => idle (self ▸ served)).symm

/-- A sector that is served has its own, and finds itself and its heights as the interval found them. -/
theorem State.Matured.deliver (h : s.Matured step ks u) (new : k ∉ ks) (served : (s.sector k).served = true) :
    s.Matured step (ks ++ [k]) (u.deliver k (step k)) := by
  have sector := h.sector_of_not_mem new
  rw [State.deliver_eq u (step k) (sector ▸ served), sector, h.active, h.dLow_of_not_mem new]
  refine ⟨?_, ?_, ?_, fun low => ?_, fun i => ?_⟩
  · exact congrArg (State.writeBack · k _ _ _) h.rest
  · rw [State.writeBack, h.freeList, List.flatMap_append, List.flatMap_singleton, List.reverse_append,
      List.append_assoc]
  · rw [State.writeBack]
    split
    · exact congrArg (DeckCounters.retire · _) h.counters
    · exact h.counters
  · have before := h.layersRetired low
    rw [List.map_append, List.sum_append, List.map_singleton, List.sum_singleton, State.writeBack]
    split
    · rw [DeckCounters.retire, before, sat32_add_sat32]
    · next idle =>
      rw [Sector.leaving_of_not_retires idle]
      exact before
  · rw [State.sector_writeBack, h.sector i]
    by_cases self : i = k
    · subst self
      rw [if_pos rfl, if_pos ⟨List.mem_append_right _ (List.mem_singleton_self i), served⟩]
    · rw [if_neg self]
      refine if_congr (and_congr_left' ?_) rfl rfl
      rw [List.mem_append, List.mem_singleton]
      exact (or_iff_left self).symm

/-- One sector's turn in an interval. -/
theorem State.Matured.turn (h : s.Matured step ks u) (new : k ∉ ks) :
    s.Matured step (ks ++ [k]) (if (u.sector k).served then u.deliver k (step k) else u) := by
  rw [h.sector_of_not_mem new]
  split
  · next served => exact h.deliver new served
  · next idle => exact h.skip idle

/-- An interval whose increments the deliveries leave as they are. -/
theorem State.matured_interval {inc : State → SectorIx → Nat}
    (fixed : ∀ ks u, s.Matured step ks u → ∀ k, inc u k = step k) :
    s.Matured step (List.finRange 24) (s.interval inc) := by
  have all : ∀ ks : List SectorIx, ks.Nodup →
      s.Matured step ks (ks.foldl (fun s k => if (s.sector k).served then s.deliver k (inc s k) else s) s) := by
    intro ks
    induction ks using List.reverseRecOn with
    | nil => exact fun _ => .nil s step
    | append_singleton ks k ih =>
      intro distinct
      obtain ⟨new, old⟩ := List.nodup_cons.mp (List.nodup_append_comm.mp distinct)
      have before := ih old
      rw [List.foldl_concat, fixed _ _ before]
      exact before.turn new
  exact all _ (List.nodup_finRange 24)

theorem execMaturityIntervalExpiry_of_running (running : s.phase = .running) (timer : s.intervalTimer = true) :
    execMaturityIntervalExpiry s = .next s.matureDeck.settle := by
  rw [execMaturityIntervalExpiry, whenRunning_running s running, if_pos timer]

/-- No delivery moves a sector's temperature (R57). -/
theorem State.Matured.temperature (h : s.Matured step ks u) (k : SectorIx) : u.temperature k = s.temperature k := by
  have probes : u.probe = s.probe := by rw [h.rest]; rfl
  rw [State.temperature, State.temperature, h.probe, probes, h.active]

/-- The expiry matures the deck, and writes retained memory stamped with the deck second (R56, R166). -/
theorem State.matureDeck_eq (s : State) :
    ∃ t m, s.Matured (fun k => increment s.active (s.temperature k)) (List.finRange 24) t ∧
      s.matureDeck = { t with retained := m } ∧
      m.checkGood = true ∧ m.stamp = s.retained.counter ∧ m.counter = s.retained.counter ∧
      m.runMark = s.retained.runMark := by
  have h : s.Matured (fun k => increment s.active (s.temperature k)) (List.finRange 24)
      (s.interval fun s k => increment s.active (s.temperature k)) :=
    State.matured_interval fun _ _ h k => by rw [h.active, h.temperature]
  unfold State.matureDeck
  generalize s.interval (fun s k => increment s.active (s.temperature k)) = t at h ⊢
  have memory : t.retained = s.retained := by rw [h.rest]
  exact ⟨_, _, h, rfl, State.rewrite_checkGood _, congrArg (·.counter) memory, congrArg (·.counter) memory,
    congrArg (·.runMark) memory⟩

end Sys2Proof.Machine

open Sys2Proof Sys2Proof.Machine

/-- Settles O31: each delivery finds its sector as the interval found it, so an interval is what its deliveries make of
the deck that it found. -/
theorem intervalMaturesEveryChain : Obligations.IntervalMaturesEveryChain := by
  unfold Obligations.IntervalMaturesEveryChain
  intro s served matured
  have key : ∀ step u, s.Matured step (List.finRange 24) u → matured step u := by
    intro step u h
    refine ⟨h.freeList, h.counters, h.layersRetired, fun k => (h.sector k).trans ?_⟩
    exact if_congr (and_iff_right (List.mem_finRange k)) rfl rfl
  refine ⟨fun step => ?_, fun running timer => ?_⟩
  · have h : s.Matured step (List.finRange 24) (s.interval fun _ k => step k) :=
      State.matured_interval fun _ _ _ _ => rfl
    exact ⟨key step _ h, h.rest⟩
  · have expiry := execMaturityIntervalExpiry_of_running running timer
    have mirrors : s.matureDeck.RetainedMirrors := State.rewrite_retainedMirrors _
    obtain ⟨t, m, h, deck, good, stamp, counter, mark⟩ := s.matureDeck_eq
    rw [deck] at expiry mirrors
    have rest := congrArg (fun v : State => { v with retained := m }) h.rest
    exact ⟨_, expiry, mirrors, stamp, good, rest, counter, mark, key _ t h⟩

end

section
/-! SUPPORT. The room of a READY jack and the length of its grant (R72, R73, R89). -/

namespace Sys2Proof.Machine

/-! ### The least term and its name: the first of CEILING, LEVEL and CRAWL among equals (R73) -/

theorem least_of_two_terms (c l : Int) :
    (if l < c then (l, Limit.level) else (c, Limit.ceiling)) =
      (min c l, if c ≤ l then Limit.ceiling else Limit.level) := by
  obtain le | lt := le_or_gt c l
  · rw [if_neg le.not_gt, if_pos le, min_eq_left le]
  · rw [if_pos lt, if_neg lt.not_ge, min_eq_right lt.le]

theorem least_of_three_terms (c l w : Int) :
    (if w < min c l then (w, Limit.crawl) else (min c l, if c ≤ l then Limit.ceiling else Limit.level)) =
      (min c (min l w),
        if c ≤ l ∧ c ≤ w then Limit.ceiling else if l ≤ w then Limit.level else Limit.crawl) := by
  rw [← min_assoc]
  obtain lt | le := lt_or_ge w (min c l)
  · obtain ⟨wc, wl⟩ := lt_min_iff.mp lt
    rw [if_pos lt, min_eq_right lt.le, if_neg fun first => first.2.not_gt wc, if_neg wl.not_ge]
  · rw [if_neg le.not_gt, min_eq_left le]
    obtain cl | lc := le_or_gt c l
    · rw [if_pos cl, if_pos ⟨cl, min_eq_left cl ▸ le⟩]
    · rw [if_neg lc.not_ge, if_neg fun first => first.1.not_gt lc, if_pos (min_eq_right lc.le ▸ le)]

/-! ### The room of a READY jack (R72, R73) -/

section Ready

variable {s : State} {j : Jack} {d : Int} {m : Nat}

theorem State.room_of_rise (ready : j.live.state = .ready) (ceiling : s.dMax j.sector = some d)
    (rise : s.mode = .rise) :
    let c := d - j.live.height
    let l := (m : Int) + s.active.tol - j.live.height
    s.room (some m) j = some (min c l, if c ≤ l then .ceiling else .level) := by
  simp only [State.room, ready, ceiling, rise, reduceCtorEq, or_self, if_false, least_of_two_terms]

theorem State.room_of_crawl {e : Nat} (ready : j.live.state = .ready) (ceiling : s.dMax j.sector = some d)
    (crawl : s.mode = .crawl) (entry : s.crawlEntry = some e) :
    let c := d - j.live.height
    let l := (m : Int) + s.active.tol - j.live.height
    let w := (e : Int) + s.active.crawlLim - j.live.height
    s.room (some m) j =
      some (min c (min l w), if c ≤ l ∧ c ≤ w then .ceiling else if l ≤ w then .level else .crawl) := by
  simp only [State.room, ready, ceiling, crawl, entry, reduceCtorEq, or_self, if_false, least_of_two_terms,
    least_of_three_terms]

end Ready

/-! ### The length, or the limiting term (R89) -/

section Length

variable {s : State} {j : Jack} {hMin : Option Nat} {room : Int} {limit : Limit}

theorem State.grantLength_of_rise (rise : s.mode = .rise) (known : s.room hMin j = some (room, limit)) :
    s.grantLength hMin j =
      if 50 ≤ min (s.active.lnom : Int) room then .inr (min (s.active.lnom : Int) room).toNat else .inl limit := by
  simp only [State.grantLength, known, rise]

theorem State.grantLength_of_crawl (crawl : s.mode = .crawl) (known : s.room hMin j = some (room, limit)) :
    s.grantLength hMin j =
      if (s.active.crawlStroke : Int) ≤ room then .inr s.active.crawlStroke else .inl limit := by
  simp only [State.grantLength, known, crawl]

end Length

end Sys2Proof.Machine

open Sys2Proof Sys2Proof.Machine

/-- Settles O32: the room carries the least term with its name, and the fit test of the mode is put to it. -/
theorem grantLengthFollowsRoom : Obligations.GrantLengthFollowsRoom := by
  unfold Obligations.GrantLengthFollowsRoom
  intro s j ceiling hMin ready hceiling lowest h c l
  rw [lowest]
  refine ⟨fun rise => ?_, fun entry crawl hentry => ?_⟩
  · have length := State.grantLength_of_rise rise (State.room_of_rise (m := hMin) ready hceiling rise)
    exact ⟨fun fits => length.trans (if_pos fits), fun short => length.trans (if_neg short.not_ge)⟩
  · have length := State.grantLength_of_crawl crawl (State.room_of_crawl (m := hMin) ready hceiling crawl hentry)
    exact ⟨fun fits => length.trans (if_pos fits), fun short => length.trans (if_neg short.not_ge)⟩

end

section
/-! SUPPORT. The request rows are frames: each is the serving rule that `serveRequest` gives its code. -/

namespace Sys2Proof.Machine

/-- What a DIAGNOSE row finds; any findings for another command. -/
def seenBy : Instr → Findings
  | .diagnose _ _ _ seen => seen
  | _ => ⟨true, true, false, false, .present⟩

/-- A request row is the completion of its frame; an unknown-code row with a code of the table is no event. -/
theorem exec_of_frame {c : Instr} {f : Frame} (h : frame? (seenBy c) c = some f) (s : State) :
    exec c s = .next s ∨
    exec c s = whenRunning s fun s => s.onFrame f.port f.payload.length fun s =>
      s.takeFrame f.port f.code f.item f.payload (seenBy c) := by
  have tailed : ∀ tail : List Byte, 1 + tail.length = tail.length + 1 := fun _ => Nat.add_comm ..
  cases c with
  | unknownRequestCode p code item payload =>
    cases h
    cases known : Request.ofCode? code with
    | some r => exact .inl (by simp [exec, execUnknownRequestCode, known])
    | none => exact .inr (by simp [exec, execUnknownRequestCode, State.takeFrame, known])
  | jackSetExclude p item tail => cases h; simp only [exec, execJackSetExclude, tailed]; exact .inr rfl
  | jackSetInclude p item tail => cases h; simp only [exec, execJackSetInclude, tailed]; exact .inr rfl
  | jackSetClear p item tail => cases h; simp only [exec, execJackSetClear, tailed]; exact .inr rfl
  | jackDefine p item tail => cases h; simp only [exec, execJackDefine, tailed]; exact .inr rfl
  | jackUndefine p item tail => cases h; simp only [exec, execJackUndefine, tailed]; exact .inr rfl
  | sectorDefine p item tail => cases h; simp only [exec, execSectorDefine, tailed]; exact .inr rfl
  | sectorUndefine p item tail => cases h; simp only [exec, execSectorUndefine, tailed]; exact .inr rfl
  | countersReadClear p item tail => cases h; simp only [exec, execCountersReadClear, tailed]; exact .inr rfl
  | diagnose p item payload seen => simp [frame?, seenBy] at h; subst h; exact .inr rfl
  | _ => cases h <;> exact .inr rfl

end Sys2Proof.Machine
end

section
/-! SUPPORT. What an event does to the grants and to a load in progress, said once for each shared operation (R81, R169):
an event is calm when it keeps the grants in step with the jacks, leaves the store request as it is, and keeps a quiet deck
quiet and a SERVING console in SERVING. -/

namespace Sys2Proof.Machine

variable {s t u : State}

/-! ### Calm events -/

/-- A load or a factory restore is in progress (R169). -/
abbrev State.Loading (s : State) : Prop := s.storeOp = some .load ∨ s.storeOp = some .factory

/-- The deck is in SURVEY or READY and no grant is live. -/
def State.Quiet (s : State) : Prop := s.mode.settingUp = true ∧ ∀ j, s.grant? j = none

/-- Port 4 is in SERVING. -/
def State.ConsoleServes (s : State) : Prop := ∃ frame, (s.port .console).receiver = .serving frame

/-- The properties of O55 together. -/
structure State.GrantsSound (s : State) : Prop where
  matched : s.GrantsMatch
  load : s.Loading → s.ConsoleServes ∧ s.Quiet

theorem State.anyGrant_eq_false_iff : s.anyGrant = false ↔ ∀ j, s.grant? j = none := by
  simp only [State.anyGrant, List.any_eq_false, Vector.mem_toList_iff, Bool.not_eq_true, Option.isSome_eq_false_iff,
    Option.isNone_iff_eq_none]
  constructor
  · exact fun h j => h _ (Vector.getElem_mem j.isLt)
  · intro h g hg
    obtain ⟨i, hi, rfl⟩ := Vector.mem_iff_getElem.mp hg
    exact h ⟨i, hi⟩

theorem State.grantsSound_iff : s.GrantsSound ↔ s.GrantsMatch ∧ s.LoadIsQuiet := by
  constructor
  · refine fun h => ⟨h.matched, fun loading => ?_⟩
    obtain ⟨serves, setting, free⟩ := h.load loading
    exact ⟨serves, setting, State.anyGrant_eq_false_iff.mpr free⟩
  · refine fun ⟨matched, load⟩ => ⟨matched, fun loading => ?_⟩
    obtain ⟨serves, setting, free⟩ := load loading
    exact ⟨serves, setting, State.anyGrant_eq_false_iff.mp free⟩

/-- An event that a load in progress may meet. -/
structure Calm (s t : State) : Prop where
  matched : s.GrantsMatch → t.GrantsMatch
  storeOp : t.storeOp = s.storeOp
  quiet : s.Quiet → t.Quiet
  serves : s.ConsoleServes → t.ConsoleServes

theorem Calm.refl (s : State) : Calm s s := ⟨id, rfl, id, id⟩

theorem Calm.trans (h : Calm s t) (h' : Calm t u) : Calm s u :=
  ⟨h'.matched ∘ h.matched, h'.storeOp.trans h.storeOp, h'.quiet ∘ h.quiet, h'.serves ∘ h.serves⟩

theorem Calm.sound (h : Calm s t) (sound : s.GrantsSound) : t.GrantsSound where
  matched := h.matched sound.matched
  load loading := by
    rw [State.Loading, h.storeOp] at loading
    obtain ⟨serves, quiet⟩ := sound.load loading
    exact ⟨h.serves serves, h.quiet quiet⟩

/-- An event that touches none of what the properties read. -/
theorem Calm.of_eq (jacks : t.jacks = s.jacks) (grants : t.grants = s.grants) (mode : t.mode = s.mode)
    (storeOp : t.storeOp = s.storeOp) (ports : t.ports = s.ports) : Calm s t := by
  have jack : ∀ j, t.jack j = s.jack j := fun j => congrArg (fun v : Vector Jack 96 => v[j]) jacks
  have grant : ∀ j, t.grant? j = s.grant? j := fun j => congrArg (fun v : Vector (Option Grant) 96 => v[j]) grants
  have port : t.port .console = s.port .console := congrArg (fun v : Vector PortRec 4 => v[Port.console.ix]) ports
  refine ⟨fun h j => ?_, storeOp, fun ⟨setting, free⟩ => ⟨mode ▸ setting, fun j => (grant j).trans (free j)⟩, ?_⟩
  · rw [jack, grant]
    exact h j
  · rintro ⟨frame, h⟩
    exact ⟨frame, port ▸ h⟩

theorem State.GrantsSound.of_eq (h : s.GrantsSound) (jacks : t.jacks = s.jacks) (grants : t.grants = s.grants)
    (mode : t.mode = s.mode) (storeOp : t.storeOp = s.storeOp) (ports : t.ports = s.ports) : t.GrantsSound :=
  (Calm.of_eq jacks grants mode storeOp ports).sound h

/-! ### The shared operations -/

theorem Calm.commit (s : State) : Calm s s.commit := .of_eq rfl rfl rfl rfl rfl

theorem Calm.rewrite (s : State) : Calm s s.rewrite := .of_eq rfl rfl rfl rfl rfl

theorem Calm.settle (s : State) : Calm s s.settle := .of_eq rfl rfl rfl rfl rfl

theorem Calm.count (s : State) (f : DeckCounters → DeckCounters) : Calm s (s.count f) := .of_eq rfl rfl rfl rfl rfl

theorem Calm.setSector (s : State) (k : SectorIx) (x : Sector) : Calm s (s.setSector k x) := .of_eq rfl rfl rfl rfl rfl

theorem Calm.refreshAll (s : State) : Calm s s.refreshAll := .of_eq rfl rfl rfl rfl rfl

theorem Calm.setAlive (s : State) (st : Station) (x : Option Nat) : Calm s (s.setAlive st x) := by
  cases st <;> exact .of_eq rfl rfl rfl rfl rfl

theorem Calm.retireSector (s : State) (k : SectorIx) : Calm s (s.retireSector k) := by
  rcases s.retireSector_cases k with e | ⟨_, _, _, e⟩ <;> rw [e]
  · exact .refl s
  · exact .of_eq rfl rfl rfl rfl rfl

theorem Calm.retireSectors (s : State) (ks : List SectorIx) : Calm s (s.retireSectors ks) :=
  State.retireSectors_induction (P := Calm s) (fun t k h => h.trans (.retireSector t k)) ks s (.refl s)

theorem Calm.placePart (s : State) (a : HoldSource) (r : HoldReason) (q : Qualifier) : Calm s (s.placePart a r q) := by
  rcases s.placePart_cases a r q with ⟨_, e⟩ | ⟨_, e⟩ <;> rw [e]
  · exact .refl s
  · exact .of_eq rfl rfl rfl rfl rfl

theorem Calm.placeExposed (s : State) : Calm s s.placeExposed := by
  rcases s.placeExposed_cases with e | ⟨_, _, _, e⟩ <;> rw [e]
  · exact .refl s
  · exact .of_eq rfl rfl rfl rfl rfl

theorem Calm.placeCrawlLimit (s : State) : Calm s s.placeCrawlLimit := by
  rcases s.placeCrawlLimit_cases with e | ⟨_, _, e⟩ <;> rw [e]
  · exact .refl s
  · exact .of_eq rfl rfl rfl rfl rfl

theorem Calm.crawlAfter (s : State) (before : Option Nat) : Calm s (s.crawlAfter before) := by
  rcases s.crawlAfter_cases before with e | ⟨_, _, e⟩ <;> rw [e]
  · exact .refl s
  · exact .of_eq rfl rfl rfl rfl rfl

/-- A mode that is derived again is SURVEY or READY. -/
theorem Calm.deriveMode (s : State) : Calm s s.deriveMode := by
  refine ⟨id, rfl, fun ⟨_, free⟩ => ⟨?_, free⟩, id⟩
  unfold State.deriveMode
  dsimp only
  split <;> rfl

theorem Calm.passMode (s : State) : Calm s s.passMode := by
  unfold State.passMode
  split
  · exact .refl s
  · exact .deriveMode s

theorem Calm.deliver (s : State) (k : SectorIx) (n : Nat) : Calm s (s.deliver k n) := by
  rcases s.deliver_cases k n with e | e <;> rw [e]
  · exact .setSector ..
  · exact (Calm.setSector ..).trans (.retireSector ..)

theorem Calm.interval (s : State) (inc : State → SectorIx → Nat) : Calm s (s.interval inc) :=
  State.interval_induction (P := Calm s) s (fun t k n h => h.trans (.deliver t k n)) inc (.refl s)

theorem Calm.credit (s : State) (n : Nat) : Calm s (s.credit n) :=
  State.credit_induction (P := Calm s) s (fun t inc h => h.trans (.interval t inc)) (.refl s) n

/-! ### Jacks and grants -/

@[simp] theorem State.grant?_setJack (s : State) (i j : JackIx) (x : Jack) :
    (s.setJack j x).grant? i = s.grant? i := rfl

@[simp] theorem State.grant?_setLive (s : State) (i j : JackIx) (v : JackLive) :
    (s.setLive j v).grant? i = s.grant? i := rfl

/-- A jack that is not GRANTED, and is not after. -/
theorem Calm.setJack {j : JackIx} {x : Jack} (old : (s.jack j).live.state ≠ .granted) (new : x.live.state ≠ .granted) :
    Calm s (s.setJack j x) := by
  refine ⟨fun h i => ?_, rfl, id, id⟩
  rw [State.jack_setJack]
  by_cases e : i = j
  · subst e
    have free : s.grant? i = none := by simpa [old] using (h i).1
    simp [free, new]
  · simpa [e] using h i

/-- A jack that keeps its state. -/
theorem Calm.setLive {j : JackIx} {v : JackLive} (state : v.state = (s.jack j).live.state) : Calm s (s.setLive j v) := by
  refine ⟨fun h i => ?_, rfl, id, id⟩
  rw [State.jack_setLive]
  by_cases e : i = j
  · subst e
    simpa [state] using h i
  · simpa [e] using h i

/-- A jack that loses its grant and with it the state GRANTED. -/
theorem Calm.release (s : State) (j : JackIx) {v : JackLive} (left : v.state ≠ .granted) :
    Calm s ((s.setGrant j none).setLive j v) := by
  refine ⟨fun h => h.release j left, rfl, fun ⟨setting, free⟩ => ⟨setting, fun i => ?_⟩, id⟩
  refine (s.grant?_setGrant i j none).trans ?_
  split
  · rfl
  · exact free i

/-! ### Ports -/

/-- A change of a port that does not take the console out of SERVING. -/
theorem Calm.setPort (s : State) (p : Port) {x : PortRec}
    (stays : p = .console → s.ConsoleServes → ∃ frame, x.receiver = .serving frame) : Calm s (s.setPort p x) := by
  refine ⟨id, rfl, id, fun serves => ?_⟩
  have port := s.port_setPort p .console x
  unfold State.ConsoleServes
  rw [port]
  split
  · next e => exact stays e.symm serves
  · exact serves

theorem Calm.goodFrame (s : State) (p : Port) : Calm s (s.goodFrame p) := by
  rw [State.goodFrame_eq]
  exact (Calm.setPort s p (by rintro rfl h; exact h)).trans (.of_eq rfl rfl rfl rfl rfl)

/-- Answering a station or the feed leaves the console alone. -/
theorem Calm.respond (s : State) {p : Port} (other : p ≠ .console) (code : Byte) (r : Reply) :
    Calm s (s.respond p code r) := by
  obtain ⟨x, e, -⟩ := s.respond_cases p code r
  rw [e]
  exact .setPort s p fun h => absurd h other

theorem Calm.lengthDiscard (s : State) (p : Port) : Calm s (s.lengthDiscard p) := by
  cases h : (s.port p).receiver with
  | answering a => simpa [State.lengthDiscard, h] using Calm.refl s
  | serving f =>
    simp only [State.lengthDiscard, h, State.setReceiver, State.countPort, State.setPort_setPort]
    exact .setPort s p fun _ _ => ⟨[], rfl⟩
  | listening =>
    simp only [State.lengthDiscard, h, State.setReceiver, State.countPort, State.setPort_setPort]
    exact .setPort s p (by rintro rfl ⟨f, e⟩; simp [h] at e)
  | collecting f =>
    simp only [State.lengthDiscard, h, State.setReceiver, State.countPort, State.setPort_setPort]
    exact .setPort s p (by rintro rfl ⟨f, e⟩; simp [h] at e)

theorem Calm.overrunDiscard (s : State) (p : Port) : Calm s (s.overrunDiscard p) := by
  rw [State.overrunDiscard_eq]
  exact .setPort s p fun _ _ => ⟨[], rfl⟩

end Sys2Proof.Machine
end

section
/-! SUPPORT. The serving rules: all are calm but MODE SET and the store requests, which the console alone sends. -/

namespace Sys2Proof.Machine

variable {s t u : State} {p : Port}

/-! ### Jacks, sectors and layers (chapters 1 and 2) -/

theorem Calm.defineJack {j : JackIx} (free : (s.jack j).live.state ≠ .granted) (st : Station) (g : Fin 8) (k : SectorIx) :
    Calm s (s.defineJack j st g k) := by
  refine (Calm.setJack free ?_).trans <| (Calm.retireSectors ..).trans <| (Calm.placeExposed _).trans <|
    (Calm.passMode _).trans (.commit _)
  rw [Jack.define_eq]
  dsimp only
  split
  · exact nofun
  · exact free

theorem Calm.undefineJack {j : JackIx} (free : (s.jack j).live.state ≠ .granted) : Calm s (s.undefineJack j) :=
  (Calm.setJack free (by decide)).trans <| (Calm.retireSectors ..).trans <| (Calm.passMode _).trans (.commit _)

theorem serveJackDefine_calm (item : Item) (payload : List Byte) : Calm s (serveJackDefine item payload s).1 := by
  unfold serveJackDefine
  split
  · exact .refl s
  · split
    · exact .refl s
    · split_ifs with _ free
      · exact .refl s
      · exact .refl s
      · exact .refl s
      · exact .defineJack free ..

theorem serveJackUndefine_calm (item : Item) : Calm s (serveJackUndefine item s).1 := by
  unfold serveJackUndefine
  split
  · exact .refl s
  · split_ifs with _ free
    · exact .refl s
    · exact .refl s
    · exact .undefineJack free

theorem serveJackDefineAny_calm (item : Item) (payload : List Byte) : Calm s (serveJackDefineAny item payload s).1 := by
  unfold serveJackDefineAny
  split
  · exact serveJackDefine_calm item payload
  · exact serveJackUndefine_calm item
  · split <;> exact .refl s

theorem readyOrRodEnd_ne_granted (plan : Plan) (rod : Nat) : readyOrRodEnd plan rod ≠ .granted := by
  unfold readyOrRodEnd
  split <;> decide

theorem Calm.surveyJack {j : JackIx} (free : (s.jack j).live.state ≠ .granted) (height : Nat) :
    Calm s (s.surveyJack j height) := by
  unfold State.surveyJack
  dsimp only
  split
  · exact .refl s
  · refine (Calm.setJack free ?_).trans <| (Calm.retireSectors ..).trans <| (Calm.placeExposed _).trans <|
      (Calm.crawlAfter ..).trans <| (Calm.passMode _).trans (.commit _)
    unfold JackLive.surveyed
    dsimp only
    split
    · exact readyOrRodEnd_ne_granted _ _
    · exact free

theorem serveSurvey_calm (item : Item) (payload : List Byte) : Calm s (serveSurvey item payload s).1 := by
  unfold serveSurvey
  dsimp only
  split
  · exact .refl s
  · split_ifs with _ _ free
    · exact .refl s
    · exact .refl s
    · exact .refl s
    · exact .refl s
    · exact .surveyJack free _

/-- More rod takes a jack from ROD_END to READY at most (R10). -/
theorem Calm.extend (s : State) (j : JackIx) (length : Nat) :
    Calm s (s.setLive j ((s.jack j).live.extended s.active length)) := by
  rw [JackLive.extended_eq]
  by_cases back : (s.jack j).live.state = .rodEnd ∧ s.active.lnom + 500 ≤ min ((s.jack j).live.rod + length) 120000
  · exact .setJack (by simp [back.1]) (by simp [back])
  · exact .setLive (if_neg back)

theorem serveRodExtend_calm (item : Item) (payload : List Byte) : Calm s (serveRodExtend item payload s).1 := by
  unfold serveRodExtend
  dsimp only
  split
  · exact .refl s
  · split
    · exact .refl s
    · exact (Calm.extend ..).trans (.commit _)

theorem Calm.excludeJack {j : JackIx} (free : (s.jack j).live.state ≠ .granted) : Calm s (s.excludeJack j) :=
  (Calm.setJack free (x := { s.jack j with live := { (s.jack j).live with state := .excluded } }) nofun).trans <|
    (Calm.retireSectors ..).trans <| (Calm.crawlAfter ..).trans (.commit _)

theorem serveJackExclude_calm (item : Item) : Calm s (serveJackExclude item s).1 := by
  unfold serveJackExclude
  dsimp only
  split
  · exact .refl s
  · split_ifs with free
    · exact .refl s
    · exact .refl s
    · exact .excludeJack free

theorem Calm.includeJack {j : JackIx} (free : (s.jack j).live.state ≠ .granted) : Calm s (s.includeJack j) :=
  (Calm.setJack free (readyOrRodEnd_ne_granted _ _)).trans <| (Calm.retireSectors ..).trans <|
    (Calm.placeExposed _).trans (.commit _)

theorem serveJackInclude_calm (item : Item) : Calm s (serveJackInclude item s).1 := by
  unfold serveJackInclude
  dsimp only
  split
  · exact .refl s
  · split_ifs with free
    · exact .refl s
    · exact .refl s
    · exact .includeJack free

theorem serveJackClear_calm (item : Item) : Calm s (serveJackClear item s).1 := by
  unfold serveJackClear
  dsimp only
  split
  · exact .refl s
  · split_ifs with free
    · exact .refl s
    · exact .refl s
    · refine (Calm.setJack free ?_).trans (.commit _)
      unfold JackLive.cleared
      dsimp only
      split
      · exact readyOrRodEnd_ne_granted _ _
      · exact free

theorem serveJackSet_calm (item : Item) (payload : List Byte) : Calm s (serveJackSet item payload s).1 := by
  unfold serveJackSet
  split
  · exact serveJackExclude_calm item
  · exact serveJackInclude_calm item
  · exact serveJackClear_calm item
  · split <;> exact .refl s

theorem serveJackRead_calm (item : Item) : Calm s (serveJackRead item s).1 := by
  unfold serveJackRead
  split <;> exact .refl s

theorem serveSectorDefine_calm (item : Item) (payload : List Byte) : Calm s (serveSectorDefine item payload s).1 := by
  unfold serveSectorDefine
  split
  · exact .refl s
  · split
    · exact .refl s
    · split
      · exact .refl s
      · exact (Calm.setSector ..).trans <| (Calm.passMode _).trans (.commit _)

theorem serveSectorUndefine_calm (item : Item) : Calm s (serveSectorUndefine item s).1 := by
  unfold serveSectorUndefine
  split
  · exact .refl s
  · split_ifs
    · exact .refl s
    · exact .refl s
    · exact .refl s
    · exact (Calm.setSector ..).trans <| (Calm.passMode _).trans (.commit _)

theorem serveSectorDefineAny_calm (item : Item) (payload : List Byte) :
    Calm s (serveSectorDefineAny item payload s).1 := by
  unfold serveSectorDefineAny
  split
  · exact serveSectorDefine_calm item payload
  · exact serveSectorUndefine_calm item
  · split <;> exact .refl s

theorem serveSectorBase_calm (item : Item) (payload : List Byte) : Calm s (serveSectorBase item payload s).1 := by
  unfold serveSectorBase
  dsimp only
  split
  · exact .refl s
  · split_ifs
    · exact .refl s
    · exact .refl s
    · exact .refl s
    · exact (Calm.setSector ..).trans <| (Calm.passMode _).trans (.commit _)

theorem serveSectorRead_calm (item : Item) : Calm s (serveSectorRead item s).1 := by
  unfold serveSectorRead
  split <;> exact .refl s

theorem Calm.appendLayer (s : State) (k : SectorIx) (slot : Slot) (free : List Slot) (thickness : Nat) (c : Fin 4) :
    Calm s (s.appendLayer k slot free thickness c) := .of_eq rfl rfl rfl rfl rfl

theorem Calm.withdrawLayer (s : State) (k : SectorIx) (l : Layer) : Calm s (s.withdrawLayer k l) :=
  .of_eq rfl rfl rfl rfl rfl

theorem serveLayerPlaced_calm (item : Item) (payload : List Byte) : Calm s (serveLayerPlaced item payload s).1 := by
  unfold serveLayerPlaced
  dsimp only
  split
  · exact .refl s
  · split
    · exact .refl s
    · split
      · exact .refl s
      · split
        · exact .refl s
        · split_ifs
          · exact .refl s
          · exact .refl s
          · split
            · exact .refl s
            · exact (Calm.appendLayer ..).trans <| (Calm.placeExposed _).trans (.commit _)

theorem serveLayerWithdraw_calm (item : Item) : Calm s (serveLayerWithdraw item s).1 := by
  unfold serveLayerWithdraw
  split
  · exact .refl s
  · split
    · exact .refl s
    · split_ifs
      · exact .refl s
      · exact .refl s
      · exact (Calm.withdrawLayer ..).trans (.commit _)

theorem serveLayerRead_calm (item : Item) (payload : List Byte) : Calm s (serveLayerRead item payload s).1 := by
  unfold serveLayerRead
  split
  · exact .refl s
  · split <;> exact .refl s

/-! ### Probes, holds and the plan (chapters 3, 6 and 7) -/

theorem serveProbeRead_calm (item : Item) : Calm s (serveProbeRead item s).1 := by
  unfold serveProbeRead
  split <;> exact .refl s

theorem serveHoldPlace_calm (p : Port) (payload : List Byte) : Calm s (serveHoldPlace p payload s).1 := by
  unfold serveHoldPlace
  split
  · exact .refl s
  · split
    · exact .refl s
    · split
      · exact .refl s
      · exact .of_eq rfl rfl rfl rfl rfl

theorem serveHoldRelease_calm (p : Port) (payload : List Byte) : Calm s (serveHoldRelease p payload s).1 := by
  unfold serveHoldRelease
  split
  · exact .refl s
  · split
    · exact .refl s
    · split_ifs
      · exact .refl s
      · exact .refl s
      · exact .refl s
      · exact .of_eq rfl rfl rfl rfl rfl

theorem serveHoldList_calm (payload : List Byte) : Calm s (serveHoldList payload s).1 := by
  unfold serveHoldList
  split <;> exact .refl s

theorem servePlanStage_calm (item : Item) (payload : List Byte) : Calm s (servePlanStage item payload s).1 := by
  unfold servePlanStage
  dsimp only
  split
  · exact .refl s
  · split
    · exact .refl s
    · exact .of_eq rfl rfl rfl rfl rfl

theorem Calm.applyPlan (s : State) : Calm s s.applyPlan := by
  unfold State.applyPlan
  dsimp only
  split
  · exact .of_eq rfl rfl rfl rfl rfl
  · refine Calm.trans ?_ <| (Calm.retireSectors ..).trans <| (Calm.placeExposed _).trans (.placeCrawlLimit _)
    exact .of_eq rfl rfl rfl rfl rfl

theorem servePlanApply_calm : Calm s (servePlanApply s).1 := by
  unfold servePlanApply
  split
  · exact .of_eq rfl rfl rfl rfl rfl
  · exact (Calm.applyPlan s).trans (.commit _)

theorem servePlanRead_calm (item : Item) : Calm s (servePlanRead item s).1 := by
  unfold servePlanRead
  split
  · exact .refl s
  · split <;> exact .refl s

/-! ### The link and the memories (chapters 8 to 10) -/

theorem Calm.clearPortCounters (s : State) : Calm s s.clearPortCounters := by
  refine ⟨id, rfl, id, fun ⟨frame, h⟩ => ⟨frame, ?_⟩⟩
  simpa [State.clearPortCounters, State.port] using h

theorem serveCounters_calm (payload : List Byte) : Calm s (serveCounters payload s).1 := by
  unfold serveCounters
  split
  · exact .clearPortCounters s
  all_goals exact .refl s

theorem serveDiagnose_calm (seen : Findings) : Calm s (serveDiagnose seen s).1 := by
  unfold serveDiagnose
  dsimp only
  split <;> exact .of_eq rfl rfl rfl rfl rfl

theorem Calm.setSpeed (s : State) (p : Port) (v : Speed) : Calm s (s.setSpeed p v) := by
  refine .setPort s p ?_
  rintro rfl ⟨frame, h⟩
  exact ⟨frame, h⟩

theorem Calm.setSpeeds (s : State) (speeds : Vector Speed 4) : Calm s (s.setSpeeds speeds) := by
  unfold State.setSpeeds
  generalize Port.all = ps
  induction ps generalizing s with
  | nil => exact .refl s
  | cons p ps ih => exact (Calm.setSpeed ..).trans (ih _)

theorem servePortSet_calm (item : Item) (payload : List Byte) : Calm s (servePortSet item payload s).1 := by
  unfold servePortSet
  split
  · exact .refl s
  · split
    · exact .refl s
    · exact .setSpeed ..

theorem Jack.clear_ne_granted (j : Jack) : j.clear.live.state ≠ .granted := by
  unfold Jack.clear
  split <;> exact nofun

/-- A deck without grants takes new jack records of which none is GRANTED. -/
theorem State.GrantsMatch.of_free (free : ∀ j, t.grant? j = none) (left : ∀ j, (t.jack j).live.state ≠ .granted) :
    t.GrantsMatch := fun j => by simp [free j, left j]

theorem serveClearDeck_calm : Calm s (serveClearDeck s).1 := by
  unfold serveClearDeck
  split_ifs with _ live
  · exact .refl s
  · exact .refl s
  · have free : ∀ j, s.grant? j = none := State.anyGrant_eq_false_iff.mp (by simpa using live)
    have cleared : Calm s s.clearLive :=
      ⟨fun _ => .of_free free fun j => by rw [State.clearLive_jack]; exact Jack.clear_ne_granted _, rfl, id, id⟩
    have kept : Calm s.clearLive s.clearLive.keepLine := .of_eq rfl rfl rfl rfl rfl
    exact cleared.trans <| kept.trans <| (Calm.deriveMode _).trans (.rewrite _)

end Sys2Proof.Machine
end

section
/-! SUPPORT. The jack table, the grant table and the deck counters, which the Grant Unit's events write; and the walk of a
demand (R86 to R91): what the grants made so far are to the deck, and what each candidate's judgement adds to them. -/

namespace Sys2Proof.Machine

/-! ### Other tables on the same deck -/

/-- The deck with other jacks, grants and deck counters. -/
def State.withTables (s : State) (jacks : Vector Jack 96) (grants : Vector (Option Grant) 96) (n : DeckCounters) : State :=
  { s with jacks := jacks, grants := grants, counters := n }

section WithTables

variable (s : State) (js js' : Vector Jack 96) (gs gs' : Vector (Option Grant) 96) (n : DeckCounters) (j : JackIx)

@[simp] theorem State.withTables_jack : (s.withTables js gs n).jack j = js[j] := rfl
@[simp] theorem State.withTables_grant? : (s.withTables js gs n).grant? j = gs[j] := rfl
@[simp] theorem State.withTables_phase : (s.withTables js gs n).phase = s.phase := rfl
@[simp] theorem State.withTables_mode : (s.withTables js gs n).mode = s.mode := rfl
@[simp] theorem State.withTables_holds : (s.withTables js gs n).holds = s.holds := rfl

theorem State.withTables_self : s.withTables s.jacks s.grants s.counters = s := rfl

theorem State.withTables_issue (st : Station) (length : Nat) :
    (s.withTables js gs n).issue st j length =
      s.withTables
        (js.set j { js[j] with live :=
          { js[j].live with state := .granted, lastLength := length, lastSecond := some s.clock } })
        (gs.set j (some ⟨st, length, s.clock, s.expirySecond, s.mode⟩))
        { n with grantsIssued := sat32 (n.grantsIssued + 1) } := rfl

variable {js js' gs gs'}

/-- Tables with the same entries. -/
theorem State.withTables_congr (jack : ∀ j : JackIx, js[j] = js'[j]) (grant : ∀ j : JackIx, gs[j] = gs'[j]) :
    s.withTables js gs n = s.withTables js' gs' n := by
  have jacks : js = js' := Vector.ext fun i hi => jack ⟨i, hi⟩
  have grants : gs = gs' := Vector.ext fun i hi => grant ⟨i, hi⟩
  rw [jacks, grants]

end WithTables

theorem getElem_set_jackIx {α : Type} (v : Vector α 96) (i j : JackIx) (x : α) :
    (v.set j x)[i] = if i = j then x else v[i] := by
  simp only [Fin.getElem_fin, Vector.getElem_set]
  by_cases h : i = j
  · simp [h]
  · have : j.val ≠ i.val := fun e => h (Fin.ext e.symm)
    simp [h, this]

/-! ### The deck after some grants -/

/-- A jack's record once it is granted a length (R90). -/
def Jack.withGrant (r : Jack) (second : Nat) (length : Nat) : Jack :=
  { r with live := { r.live with state := .granted, lastLength := length, lastSecond := some second } }

/-- The deck with grants of some lengths issued to some jacks, one after another (R90). -/
def State.granting (s : State) (st : Station) (grants : List (JackIx × Nat)) : State :=
  s.withTables
    (Vector.ofFn fun j : JackIx =>
      match grants.find? fun g : JackIx × Nat => g.1 == j with
      | some g => (s.jack j).withGrant s.clock g.2
      | none => s.jack j)
    (Vector.ofFn fun j : JackIx =>
      match grants.find? fun g : JackIx × Nat => g.1 == j with
      | some g => some ⟨st, g.2, s.clock, s.expirySecond, s.mode⟩
      | none => s.grant? j)
    (grants.foldl (fun n _ => { n with grantsIssued := sat32 (n.grantsIssued + 1) }) s.counters)

variable {s : State} {st : Station} {grants : List (JackIx × Nat)} {j : JackIx}

theorem find?_eq_none_of_not_mem (new : j ∉ grants.map Prod.fst) :
    (grants.find? fun g : JackIx × Nat => g.1 == j) = none := by
  rw [List.find?_eq_none]
  rintro g hg e
  exact new (List.mem_map.mpr ⟨g, hg, by simpa using e⟩)

theorem find?_append_new (new : j ∉ grants.map Prod.fst) (length : Nat) (i : JackIx) :
    ((grants ++ [(j, length)]).find? fun g : JackIx × Nat => g.1 == i) =
      if i = j then some (j, length) else grants.find? fun g : JackIx × Nat => g.1 == i := by
  rw [List.find?_append]
  by_cases e : i = j
  · subst e
    simp [find?_eq_none_of_not_mem new]
  · simp [e, Ne.symm e]

theorem State.granting_nil (s : State) (st : Station) : s.granting st [] = s := by
  refine Eq.trans (s.withTables_congr (js' := s.jacks) (gs' := s.grants) _ (fun j => ?_) fun j => ?_) s.withTables_self
  · simp [State.jack]
  · simp [State.grant?]

theorem State.granting_jack (s : State) (st : Station) (grants : List (JackIx × Nat)) (j : JackIx) :
    (s.granting st grants).jack j =
      match grants.find? fun g : JackIx × Nat => g.1 == j with
      | some g => (s.jack j).withGrant s.clock g.2
      | none => s.jack j := by
  rw [State.granting, State.withTables_jack, Fin.getElem_fin, Vector.getElem_ofFn]

theorem State.granting_grant? (s : State) (st : Station) (grants : List (JackIx × Nat)) (j : JackIx) :
    (s.granting st grants).grant? j =
      match grants.find? fun g : JackIx × Nat => g.1 == j with
      | some g => some ⟨st, g.2, s.clock, s.expirySecond, s.mode⟩
      | none => s.grant? j := by
  rw [State.granting, State.withTables_grant?, Fin.getElem_fin, Vector.getElem_ofFn]

theorem State.granting_jack_new (new : j ∉ grants.map Prod.fst) : (s.granting st grants).jack j = s.jack j := by
  rw [State.granting_jack, find?_eq_none_of_not_mem new]

theorem State.granting_grant?_new (new : j ∉ grants.map Prod.fst) :
    (s.granting st grants).grant? j = s.grant? j := by
  rw [State.granting_grant?, find?_eq_none_of_not_mem new]

@[simp] theorem State.granting_phase (s : State) (st : Station) (grants : List (JackIx × Nat)) :
    (s.granting st grants).phase = s.phase := by rw [State.granting, State.withTables_phase]

@[simp] theorem State.granting_mode (s : State) (st : Station) (grants : List (JackIx × Nat)) :
    (s.granting st grants).mode = s.mode := by rw [State.granting, State.withTables_mode]

@[simp] theorem State.granting_holds (s : State) (st : Station) (grants : List (JackIx × Nat)) :
    (s.granting st grants).holds = s.holds := by rw [State.granting, State.withTables_holds]

/-- One more grant. -/
theorem State.granting_issue (new : j ∉ grants.map Prod.fst) (length : Nat) :
    (s.granting st grants).issue st j length = s.granting st (grants ++ [(j, length)]) := by
  rw [State.granting, State.withTables_issue, State.granting, List.foldl_append]
  refine s.withTables_congr _ (fun i => ?_) fun i => ?_
  · rw [getElem_set_jackIx]
    simp only [Fin.getElem_fin, Vector.getElem_ofFn, find?_append_new new, find?_eq_none_of_not_mem new]
    split
    · next e =>
      subst e
      rfl
    · rfl
  · rw [getElem_set_jackIx]
    simp only [Fin.getElem_fin, Vector.getElem_ofFn, find?_append_new new]
    split <;> rfl

/-! ### The judgement of a candidate (R87, R88, R89) -/

/-- The judgement of R87 of a record, with the station's live grants given. -/
def State.judgeAt (s : State) (hMin : Option Nat) (st : Station) (most live made : Nat) (r : Jack) : Withheld ⊕ Nat :=
  if r.live.state ≠ .ready then .inl .state
  else if !s.cadencePassed r then .inl .cadence
  else
    match s.grantLength hMin r with
    | .inl limit => .inl (.limit limit)
    | .inr length =>
      if r.live.rod < length + 500 then .inl .rod
      else if s.active.budget st ≤ live then .inl .budget
      else if most ≤ made then .inl .count
      else .inr length

/-- The tables reach a judgement by the jack's own record and the count of live grants alone. -/
theorem State.withTables_judge (s : State) (js : Vector Jack 96) (gs : Vector (Option Grant) 96) (n : DeckCounters)
    (hMin : Option Nat) (st : Station) (most made : Nat) (j : JackIx) :
    (s.withTables js gs n).judge hMin st most made j =
      s.judgeAt hMin st most ((s.withTables js gs n).liveGrants st) made js[j] := rfl

/-- Grants of jacks that had none add to the live grants of their station. -/
theorem State.liveGrants_setGrant (s : State) (st : Station) {j : JackIx} (free : s.grant? j = none) {g : Grant}
    (own : g.station = st) : (s.setGrant j (some g)).liveGrants st = s.liveGrants st + 1 := by
  have here : s.grants.toList[j.val]'(by simp) = none := by simpa [State.grant?] using free
  have set : (s.setGrant j (some g)).grants.toList = s.grants.toList.set j.val (some g) := by
    simp [State.setGrant, Vector.toList_set]
  have old : s.grants.toList = s.grants.toList.take j.val ++ none :: s.grants.toList.drop (j.val + 1) := by
    conv_lhs => rw [← List.take_append_drop j.val s.grants.toList, List.drop_eq_getElem_cons (by simp), here]
  unfold State.liveGrants
  rw [set, List.set_eq_take_append_cons_drop, if_pos (by simp)]
  conv_rhs => rw [old]
  simp [own]
  omega

theorem State.liveGrants_issue (s : State) (st : Station) {j : JackIx} (free : s.grant? j = none) (length : Nat) :
    (s.issue st j length).liveGrants st = s.liveGrants st + 1 :=
  s.liveGrants_setGrant st free (g := ⟨st, length, s.clock, s.expirySecond, s.mode⟩) rfl

theorem State.granting_liveGrants (nodup : (grants.map Prod.fst).Nodup) (free : ∀ g ∈ grants, s.grant? g.1 = none) :
    (s.granting st grants).liveGrants st = s.liveGrants st + grants.length := by
  induction grants using List.reverseRecOn with
  | nil => rw [State.granting_nil]; rfl
  | append_singleton grants g ih =>
    obtain ⟨j, length⟩ := g
    rw [List.map_append, List.nodup_append] at nodup
    obtain ⟨nodup, -, apart⟩ := nodup
    have new : j ∉ grants.map Prod.fst := fun h => apart j h j (by simp) rfl
    have freeJ : (s.granting st grants).grant? j = none :=
      (State.granting_grant?_new new).trans (free (j, length) (by simp))
    rw [← State.granting_issue new, State.liveGrants_issue _ st freeJ,
      ih nodup fun g hg => free g (List.mem_append_left _ hg), List.length_append]
    rfl

/-- A candidate that a demand has not granted is judged on its own record as it was before the demand. -/
theorem State.granting_judge (nodup : (grants.map Prod.fst).Nodup) (free : ∀ g ∈ grants, s.grant? g.1 = none)
    (new : j ∉ grants.map Prod.fst) (hMin : Option Nat) (most : Nat) :
    (s.granting st grants).judge hMin st most grants.length j =
      s.judgeAt hMin st most (s.liveGrants st + grants.length) grants.length (s.jack j) := by
  rw [← State.granting_liveGrants nodup free, ← State.granting_jack_new (st := st) new]
  exact State.withTables_judge ..

/-! ### The walk (R86, R91) -/

section Walk

variable (hMin : Option Nat) (most : Nat) {d : Demand} {js : List JackIx}

/-- The walk goes on from a demand under way. -/
def Demand.walk (st : Station) (d : Demand) (js : List JackIx) : Demand := js.foldl (Demand.step hMin st most) d

theorem Demand.step_of_granted {length : Nat} (h : d.state.judge hMin st most d.grants.length j = .inr length) :
    d.step hMin st most j = { d with state := d.state.issue st j length, grants := d.grants ++ [(j, length)] } := by
  rw [Demand.step, h]

theorem Demand.step_of_withheld {reason : Withheld} (h : d.state.judge hMin st most d.grants.length j = .inl reason) :
    d.step hMin st most j = { d with withheld := d.withheld.or (some (reason, j)) } := by
  rw [Demand.step, h]

/-- A walk adds grants of its own candidates, in their order, and keeps the first candidate withheld. -/
theorem Demand.walk_adds (st : Station) (d : Demand) (js : List JackIx) :
    (∃ more, (d.walk hMin most st js).grants = d.grants ++ more ∧ (more.map Prod.fst).Sublist js) ∧
    ∀ w, d.withheld = some w → (d.walk hMin most st js).withheld = some w := by
  induction js generalizing d with
  | nil => exact ⟨⟨[], by simp [Demand.walk], by simp⟩, fun _ h => h⟩
  | cons j js ih =>
    obtain ⟨⟨more, grants, sub⟩, stays⟩ := ih (d.step hMin st most j)
    cases h : d.state.judge hMin st most d.grants.length j with
    | inl reason =>
      rw [Demand.step_of_withheld hMin most h] at grants stays
      refine ⟨⟨more, ?_, sub.cons j⟩, fun w hw => ?_⟩
      · rw [Demand.walk, List.foldl_cons, Demand.step_of_withheld hMin most h]
        exact grants
      · rw [Demand.walk, List.foldl_cons, Demand.step_of_withheld hMin most h]
        exact stays w (by simp [hw])
    | inr length =>
      rw [Demand.step_of_granted hMin most h] at grants stays
      refine ⟨⟨(j, length) :: more, ?_, sub.cons_cons j⟩, fun w hw => ?_⟩
      · rw [Demand.walk, List.foldl_cons, Demand.step_of_granted hMin most h]
        exact grants.trans (by simp)
      · rw [Demand.walk, List.foldl_cons, Demand.step_of_granted hMin most h]
        exact stays w hw

theorem Demand.walk_snoc (st : Station) (d : Demand) (js : List JackIx) (j : JackIx) :
    d.walk hMin most st (js ++ [j]) = (d.walk hMin most st js).step hMin st most j := List.foldl_concat ..

/-- What is known of a walk over distinct candidates: its deck is that of its grants, each given to a candidate that was
READY, and no candidate is withheld while every one is granted. -/
structure Demand.Walked (s : State) (st : Station) (js : List JackIx) (d : Demand) : Prop where
  state : d.state = s.granting st d.grants
  sub : (d.grants.map Prod.fst).Sublist js
  ready : ∀ g ∈ d.grants, (s.jack g.1).live.state = .ready
  withheld : (∀ j ∈ js, j ∈ d.grants.map Prod.fst) → d.withheld = none

theorem Demand.Walked.step (h : d.Walked s st js) (new : j ∉ js) : (d.step hMin st most j).Walked s st (js ++ [j]) := by
  have fresh : j ∉ d.grants.map Prod.fst := fun hj => new (h.sub.subset hj)
  cases judged : d.state.judge hMin st most d.grants.length j with
  | inl reason =>
    rw [Demand.step_of_withheld hMin most judged]
    exact ⟨h.state, h.sub.trans (List.sublist_append_left ..), h.ready, fun all => absurd (all j (by simp)) fresh⟩
  | inr length =>
    rw [Demand.step_of_granted hMin most judged]
    have ready := (State.of_judge judged).1
    rw [h.state, State.granting_jack_new fresh] at ready
    refine ⟨?_, by simpa using h.sub, ?_, fun all => h.withheld fun i hi => ?_⟩
    · rw [h.state]
      exact State.granting_issue fresh length
    · intro g hg
      rcases List.mem_append.mp hg with hg | hg
      · exact h.ready g hg
      · rwa [List.mem_singleton.mp hg]
    · have granted := all i (List.mem_append_left _ hi)
      rw [List.map_append, List.mem_append] at granted
      exact granted.resolve_right fun e => new (by simp at e; exact e ▸ hi)

theorem Demand.walked (s : State) (st : Station) (nodup : js.Nodup) :
    (Demand.walk hMin most st ⟨s, [], none⟩ js).Walked s st js := by
  induction js using List.reverseRecOn with
  | nil => exact ⟨(State.granting_nil s st).symm, .slnil, by simp [Demand.walk], fun _ => rfl⟩
  | append_singleton js j ih =>
    rw [List.nodup_append] at nodup
    obtain ⟨nodup, -, apart⟩ := nodup
    rw [Demand.walk_snoc]
    exact (ih nodup).step hMin most fun h => apart j h j (by simp) rfl

/-- The judgement that a walk makes of its next candidate, read off the deck before the demand. -/
theorem Demand.Walked.judge (h : d.Walked s st js) (new : j ∉ js) (nodup : js.Nodup)
    (free : ∀ j, (s.jack j).live.state = .ready → s.grant? j = none) :
    d.state.judge hMin st most d.grants.length j =
      s.judgeAt hMin st most (s.liveGrants st + d.grants.length) d.grants.length (s.jack j) := by
  rw [h.state]
  exact State.granting_judge (h.sub.nodup nodup) (fun g hg => free _ (h.ready g hg))
    (fun hj => new (h.sub.subset hj)) hMin most

end Walk

end Sys2Proof.Machine
end

section
/-! SUPPORT. The Grant Unit's requests and events are calm (chapter 5): a demand grants nothing on a quiet deck, and every
other event takes grants away with the state GRANTED. -/

namespace Sys2Proof.Machine

variable {s t u : State}

/-! ### STROKE DEMAND -/

/-- Tables that keep the grants in step with the jacks and a quiet deck quiet. -/
theorem Calm.withTables {js : Vector Jack 96} {gs : Vector (Option Grant) 96} {n : DeckCounters}
    (matched : s.GrantsMatch → (s.withTables js gs n).GrantsMatch) (quiet : s.Quiet → (s.withTables js gs n).Quiet) :
    Calm s (s.withTables js gs n) := ⟨matched, rfl, quiet, id⟩

/-- Granting jacks of the station keeps the grants in step with the jacks. -/
theorem State.GrantsMatch.granting (h : s.GrantsMatch) {st : Station} {grants : List (JackIx × Nat)}
    (own : ∀ g ∈ grants, (s.jack g.1).station = st) : (s.granting st grants).GrantsMatch := by
  intro j
  rw [State.granting_jack, State.granting_grant?]
  split
  · next g found =>
    have named : g.1 = j := by simpa using List.find?_some found
    have station := own g (List.mem_of_find?_eq_some found)
    rw [named] at station
    simp [Jack.withGrant, station]
  · exact h j

/-- Grants are made on a moving deck alone. -/
theorem Calm.granting {st : Station} {grants : List (JackIx × Nat)} (moving : s.mode.moving = true)
    (own : ∀ g ∈ grants, (s.jack g.1).station = st) : Calm s (s.granting st grants) := by
  have matched : s.GrantsMatch → (s.granting st grants).GrantsMatch := fun h => h.granting own
  rw [State.granting] at matched ⊢
  exact .withTables matched fun quiet => by simp [State.Quiet, Mode.settingUp, moving] at quiet

theorem State.demand_eq_walk (s : State) (st : Station) (scope : Option (Fin 8)) (most : Nat) :
    s.demand st scope most = Demand.walk s.hMin most st ⟨s, [], none⟩ (s.candidates st scope) := rfl

theorem serveStrokeDemand_calm (p : Port) (payload : List Byte) : Calm s (serveStrokeDemand p payload s).1 := by
  unfold serveStrokeDemand
  split
  · exact .refl s
  · exact .refl s
  · next st scope _ _ =>
    split_ifs with _ moving
    · exact .refl s
    · exact .refl s
    · exact .refl s
    · refine Calm.trans ?_ (.commit _)
      have walked := Demand.walked s.hMin (mostGrants (u8At payload 1)) s st (s.candidates_nodup st scope)
      rw [State.demand_eq_walk, walked.state]
      refine .granting (by simpa using moving) fun g hg => ?_
      exact ((s.mem_candidates st scope g.1).mp (walked.sub.subset (List.mem_map_of_mem hg))).2.1

/-! ### STROKE REPORT -/

theorem Calm.heightMoved (s before : State) (j : JackIx) : Calm s (s.heightMoved before j) := by
  have holds : ∀ t : State, Calm t (t.placeExposed.crawlAfter before.hMin) :=
    fun t => (Calm.placeExposed t).trans (.crawlAfter ..)
  unfold State.heightMoved
  split
  · exact .refl s
  · dsimp only
    split
    · exact (Calm.retireSector ..).trans (holds _)
    · exact holds s

theorem JackLive.stroked_state_ne_granted (v : JackLive) (plan : Plan) (g travel : Nat) :
    (v.stroked plan g travel).state ≠ .granted := by
  unfold JackLive.stroked JackLive.afterStroke
  dsimp only
  split
  · decide
  · exact readyOrRodEnd_ne_granted _ _

theorem Calm.doneEntry (s : State) (j : JackIx) (travel : Nat) : Calm s (s.doneEntry j travel) :=
  (Calm.release s j (JackLive.stroked_state_ne_granted _ _ _ _)).trans <| (Calm.count ..).trans (.heightMoved ..)

theorem Calm.lateEntry {j : JackIx} (free : (s.jack j).live.state ≠ .granted) (travel : Nat) :
    Calm s (s.lateEntry j travel) :=
  (Calm.setJack free (JackLive.stroked_state_ne_granted _ _ _ _)).trans <| (Calm.count ..).trans (.heightMoved ..)

theorem Calm.ungrantedEntry (s : State) (j : JackIx) (travel : Nat) : Calm s (s.ungrantedEntry j travel) :=
  (Calm.setLive (v := { (s.jack j).live.travelled travel with ungranted := true }) rfl).trans <|
    (Calm.count ..).trans <| (Calm.placePart ..).trans (.heightMoved ..)

/-- Only an entry for an expired jack is LATE (R94). -/
theorem Jack.stalled_of_classify {j : Jack} {st : Station} (h : j.classify st = .late) : j.live.state = .stalled := by
  unfold Jack.classify at h
  split_ifs at h
  split at h <;> first | assumption | cases h

theorem Calm.reportEntry (s : State) (st : Station) (jack travel : Nat) : Calm s (s.reportEntry st jack travel).1 := by
  unfold State.reportEntry
  split
  · exact .refl s
  · dsimp only
    split
    · exact .settle s
    · exact .settle s
    · exact .settle s
    · exact (Calm.doneEntry ..).trans (.settle _)
    · next late => exact (Calm.lateEntry (by simp [Jack.stalled_of_classify late]) travel).trans (.settle _)
    · split
      · exact .settle s
      · exact (Calm.ungrantedEntry ..).trans (.settle _)

theorem Calm.report (s : State) (st : Station) (entries : List (Nat × Nat)) : Calm s (s.report st entries).1 := by
  induction entries generalizing s with
  | nil => exact .refl s
  | cons e rest ih => exact (Calm.reportEntry ..).trans (ih _)

theorem serveStrokeReport_calm (p : Port) (payload : List Byte) : Calm s (serveStrokeReport p payload s).1 := by
  unfold serveStrokeReport
  split
  · exact .refl s
  · exact (Calm.report ..).trans (.commit _)

/-! ### STROKE CANCEL, expiry and STATION VIEW -/

theorem Calm.cancelEntry (s : State) (st : Station) (jack : Nat) : Calm s (s.cancelEntry st jack).1 := by
  rcases (s.cancelEntry_cases st jack).2 with e | ⟨j, -, e⟩ <;> rw [e]
  · exact .refl s
  · exact .release s j nofun

theorem Calm.cancel (s : State) (st : Station) (named : List Byte) : Calm s (s.cancel st named).1 := by
  induction named generalizing s with
  | nil => exact .refl s
  | cons b rest ih => exact (Calm.cancelEntry ..).trans (ih _)

theorem serveStrokeCancel_calm (p : Port) (payload : List Byte) : Calm s (serveStrokeCancel p payload s).1 := by
  unfold serveStrokeCancel
  split
  · exact .refl s
  · exact (Calm.cancel ..).trans (.commit _)

theorem Calm.expire (s : State) (j : JackIx) : Calm s (s.expire j) :=
  (Calm.release s j (v := { (s.jack j).live with
    state := .stalled, stallCount := sat16 ((s.jack j).live.stallCount + 1) }) nofun).trans <|
    (Calm.count ..).trans (.commit _)

theorem serveStationView_calm (p : Port) (payload : List Byte) : Calm s (serveStationView p payload s).1 := by
  unfold serveStationView
  split
  · exact .refl s
  · split <;> exact .refl s

end Sys2Proof.Machine
end

section
/-! SUPPORT. The grants and a load in progress through every command (R81, R169): a frame on the console meets no load,
since a load keeps port 4 in SERVING, so what is not calm happens only while none is in progress. -/

namespace Sys2Proof.Machine

variable {s t u : State} {p : Port}

/-! ### While no load is in progress -/

theorem State.GrantsMatch.sound_of_idle (matched : s.GrantsMatch) (idle : ¬ s.Loading) : s.GrantsSound :=
  ⟨matched, fun loading => absurd loading idle⟩

/-- No load is in progress while the console is not in SERVING. -/
theorem State.GrantsSound.idle (h : s.GrantsSound) (open' : ∀ frame, (s.port p).receiver ≠ .serving frame) :
    p = .console → ¬ s.Loading := by
  rintro rfl loading
  obtain ⟨frame, serving⟩ := (h.load loading).1
  exact open' frame serving

theorem State.GrantsSound.setPort (h : s.GrantsSound) (idle : p = .console → ¬ s.Loading) (x : PortRec) :
    (s.setPort p x).GrantsSound := by
  by_cases e : p = .console
  · exact State.GrantsMatch.sound_of_idle (s := s.setPort p x) h.matched (idle e)
  · exact (Calm.setPort s p fun e' => absurd e' e).sound h

theorem State.GrantsSound.respond (h : s.GrantsSound) (idle : p = .console → ¬ s.Loading) (code : Byte) (r : Reply) :
    (s.respond p code r).GrantsSound := by
  obtain ⟨x, e, -⟩ := s.respond_cases p code r
  rw [e]
  exact h.setPort idle x

/-! ### Serving rules -/

/-- What a serving rule may leave: a calm event, one of the console's that starts no load, or the start of a load on a quiet
deck. -/
inductive GrantServes (p : Port) (s : State) : State × Reply → Prop
  | calm {r : State × Reply} (h : Calm s r.1) : GrantServes p s r
  | console {r : State × Reply} (here : p = .console) (matched : s.GrantsMatch → r.1.GrantsMatch)
      (idle : ¬ s.Loading → ¬ r.1.Loading) : GrantServes p s r
  | load {u : State} (here : p = .console) (matched : s.GrantsMatch → u.GrantsMatch) (quiet : u.Quiet) :
      GrantServes p s (u, .serve)

theorem GrantServes.respond {r : State × Reply} (served : GrantServes p s r) (h : s.GrantsSound)
    (idle : p = .console → ¬ s.Loading) (code : Byte) : (r.1.respond p code r.2).GrantsSound := by
  cases served with
  | calm served =>
    refine (served.sound h).respond (fun e => ?_) ..
    rw [State.Loading, served.storeOp]
    exact idle e
  | console here matched stays =>
    have still := stays (idle here)
    exact (State.GrantsMatch.sound_of_idle (matched h.matched) still).respond (fun _ => still) ..
  | @load u here matched quiet =>
    subst here
    refine ⟨matched h.matched, fun _ => ⟨⟨[], ?_⟩, quiet⟩⟩
    show ((u.setPort .console _).port .console).receiver = _
    rw [State.port_setPort, if_pos rfl]

theorem State.GrantsSound.take {r : Request} {n : Nat} {serve : State → State × Reply} (h : s.GrantsSound)
    (idle : p = .console → ¬ s.Loading)
    (served : ∀ u, r.allowed p = true → GrantServes p u (serve u)) : (s.take r p n serve).GrantsSound := by
  have good := (Calm.goodFrame s p).sound h
  have idle' : p = .console → ¬ (s.goodFrame p).Loading := by
    rw [State.Loading, (Calm.goodFrame s p).storeOp]
    exact idle
  rw [State.take_cases]
  split
  · exact good.respond idle' ..
  · next allowed =>
    split
    · exact good.respond idle' ..
    · exact (served _ (by simpa using allowed)).respond good idle' _

theorem serveModeSet_grantServes (payload : List Byte) : GrantServes .console s (serveModeSet payload s) := by
  have leave : ∀ m, Calm (s.leaveFor m) (s.leaveFor m).commit := fun m => .commit _
  have left : ∀ m, (s.leaveFor m).storeOp = s.storeOp ∧ (s.GrantsMatch → (s.leaveFor m).GrantsMatch) := by
    intro m
    unfold State.leaveFor
    dsimp only
    split <;> exact ⟨rfl, id⟩
  have leaves : ∀ m reply, GrantServes .console s ((s.leaveFor m).commit, reply) := fun m reply =>
    .console rfl (left m).2 (by simp only [State.Loading, State.commit_storeOp, (left m).1, imp_self])
  have enters : GrantServes .console s (match s.hMin with
      | none => (s, Reply.refuse .state 1)
      | some m => ((s.enterCrawl m).commit, .accept (modeAnswer (s.enterCrawl m).commit))) := by
    split
    · exact .calm (.refl s)
    · exact .console rfl id id
  unfold serveModeSet
  split
  · split
    · exact .calm (.refl s)
    · exact leaves ..
  · split
    · exact .calm (.refl s)
    · exact .calm (.refl s)
    · exact enters
    · exact enters
  · split
    · exact .calm (.refl s)
    · exact leaves ..
  · exact .calm (.refl s)

/-- A load or a factory restore starts on a quiet deck (section 10.3). -/
theorem serveConfigStart_grantServes (op : StoreOp) : GrantServes .console s (serveConfigStart op s) := by
  unfold serveConfigStart
  split_ifs with moving live
  · exact .calm (.refl s)
  · exact .calm (.refl s)
  · refine .load rfl id ⟨by simpa using moving, ?_⟩
    have none : s.anyGrant = false := by simpa using live
    exact State.anyGrant_eq_false_iff.mp none

theorem serveConfigSave_grantServes : GrantServes .console s (serveConfigSave s) :=
  .console rfl id fun _ => by simp [serveConfigSave, State.Loading]

/-- Every request's serving rule, on a port that may send it. -/
theorem serveRequest_grantServes (r : Request) (p : Port) (item : Item) (payload : List Byte) (seen : Findings)
    (allowed : r.allowed p = true) : GrantServes p s (serveRequest r p item payload seen s) := by
  cases r with
  | deckSummary => exact .calm (.refl s)
  | jackRead => exact .calm (serveJackRead_calm item)
  | sectorRead => exact .calm (serveSectorRead_calm item)
  | layerRead => exact .calm (serveLayerRead_calm item payload)
  | probeRead => exact .calm (serveProbeRead_calm item)
  | planRead => exact .calm (servePlanRead_calm item)
  | identity => exact .calm (.refl s)
  | strokeDemand => exact .calm (serveStrokeDemand_calm p payload)
  | strokeReport => exact .calm (serveStrokeReport_calm p payload)
  | strokeCancel => exact .calm (serveStrokeCancel_calm p payload)
  | stationView => exact .calm (serveStationView_calm p payload)
  | layerPlaced => exact .calm (serveLayerPlaced_calm item payload)
  | feedAdvice => exact .calm (.refl s)
  | layerWithdraw => exact .calm (serveLayerWithdraw_calm item)
  | holdPlace => exact .calm (serveHoldPlace_calm p payload)
  | holdRelease => exact .calm (serveHoldRelease_calm p payload)
  | holdList => exact .calm (serveHoldList_calm payload)
  | modeSet => cases eq_of_beq allowed; exact serveModeSet_grantServes payload
  | survey => exact .calm (serveSurvey_calm item payload)
  | rodExtend => exact .calm (serveRodExtend_calm item payload)
  | jackSet => exact .calm (serveJackSet_calm item payload)
  | jackDefine => exact .calm (serveJackDefineAny_calm item payload)
  | sectorDefine => exact .calm (serveSectorDefineAny_calm item payload)
  | sectorBase => exact .calm (serveSectorBase_calm item payload)
  | planStage => exact .calm (servePlanStage_calm item payload)
  | planApply => exact .calm servePlanApply_calm
  | silence => exact .calm (.of_eq rfl rfl rfl rfl rfl)
  | configSave => cases eq_of_beq allowed; exact serveConfigSave_grantServes
  | configLoad => cases eq_of_beq allowed; exact serveConfigStart_grantServes .load
  | configFactory => cases eq_of_beq allowed; exact serveConfigStart_grantServes .factory
  | clearDeck => exact .calm serveClearDeck_calm
  | restart => exact .calm (.of_eq rfl rfl rfl rfl rfl)
  | diagnose => exact .calm (serveDiagnose_calm seen)
  | counters => exact .calm (serveCounters_calm payload)
  | portSet => exact .calm (servePortSet_calm item payload)

/-! ### Frames and bytes (R143 to R149) -/

theorem State.GrantsSound.takeFrame (h : s.GrantsSound) (idle : p = .console → ¬ s.Loading) (code : Byte) (item : Item)
    (payload : List Byte) (seen : Findings) : (s.takeFrame p code item payload seen).GrantsSound := by
  unfold State.takeFrame
  split
  · exact h.take idle fun _ allowed => serveRequest_grantServes _ p item payload seen allowed
  · refine ((Calm.goodFrame s p).sound h).respond ?_ ..
    rw [State.Loading, (Calm.goodFrame s p).storeOp]
    exact idle

theorem State.GrantsSound.checkFail (h : s.GrantsSound) (idle : p = .console → ¬ s.Loading) (code : Byte) (formed : Nat) :
    (s.checkFail p code formed).GrantsSound := by
  rw [State.checkFail, State.setReceiver, State.countPort, State.setPort_setPort]
  exact h.setPort idle _

/-- What keeps the properties on a port that hears keeps them whatever the port's receiver makes of the frame. -/
theorem State.GrantsSound.onFrame {n : Nat} {judge : State → State} (h : s.GrantsSound)
    (judged : ∀ u : State, u.GrantsSound → (p = .console → ¬ u.Loading) → (judge u).GrantsSound) :
    (s.onFrame p n judge).GrantsSound := by
  have heard : (∀ frame, (s.port p).receiver ≠ .serving frame) → (judge (s.setReceiver p .listening)).GrantsSound :=
    fun open' => judged _ (h.setPort (h.idle open') _) (h.idle open')
  unfold State.onFrame
  split
  · exact h
  · split
    · exact (Calm.lengthDiscard s p).sound h
    · exact (Calm.overrunDiscard s p).sound h
  all_goals
    next receiver =>
    split
    · exact (Calm.lengthDiscard s p).sound h
    · exact heard (by simp [receiver])

theorem Calm.setReceiver_serving (s : State) (p : Port) (frame : List Byte) :
    Calm s (s.setReceiver p (.serving frame)) := .setPort s p fun _ _ => ⟨frame, rfl⟩

theorem State.GrantsSound.hear (h : s.GrantsSound) (p : Port) (b : Byte) (seen : Findings) :
    (s.hear p b seen).GrantsSound := by
  unfold State.hear
  split
  · next receiver =>
    split
    · exact h.setPort (h.idle (by simp [receiver])) _
    · exact h
  · next receiver =>
    unfold State.gather
    split
    · exact h.setPort (h.idle (by simp [receiver])) _
    · exact ((Calm.lengthDiscard s p).trans (.settle _)).sound h
    · refine (Calm.settle _).sound ?_
      unfold State.completeFrame
      refine h.onFrame fun u hu idle => ?_
      split
      · exact hu.takeFrame idle ..
      · exact hu.checkFail idle ..
  · split
    · exact (Calm.setReceiver_serving ..).sound h
    · exact h
  · unfold State.gatherServing
    split
    · exact (Calm.setReceiver_serving ..).sound h
    · exact ((Calm.lengthDiscard s p).trans (.settle _)).sound h
    · exact ((Calm.overrunDiscard s p).trans (.settle _)).sound h
  · exact h

/-! ### Events that end a store request -/

theorem State.not_loading_of_none (idle : s.storeOp = none) : ¬ s.Loading := by simp [State.Loading, idle]

theorem State.GrantsMatch.respond (matched : s.GrantsMatch) (idle : s.storeOp = none) (code : Byte) (r : Reply) :
    (s.respond p code r).GrantsSound :=
  (matched.sound_of_idle (State.not_loading_of_none idle)).respond (fun _ => State.not_loading_of_none idle) code r

theorem State.GrantsMatch.halt (matched : s.GrantsMatch) (ph : Phase) : (s.halt ph).GrantsSound := by
  rcases s.abortStore_cases with e | e <;> unfold State.halt <;> rw [e] <;>
    exact State.GrantsMatch.sound_of_idle (by exact matched) (State.not_loading_of_none rfl)

theorem State.GrantsMatch.endSave (matched : s.GrantsMatch) (c : Configuration) (serial : Nat) (good : Bool) :
    (s.endSave c serial good).GrantsSound := by
  unfold State.endSave
  dsimp only
  split <;> exact State.GrantsMatch.respond (by exact matched) rfl ..

theorem Jack.reconfigure_ne_granted {j : Jack} (free : j.live.state ≠ .granted) (d : Option JackDef) :
    (j.reconfigure d).live.state ≠ .granted := by
  unfold Jack.reconfigure
  split
  · decide
  · dsimp only
    split
    · exact free
    · decide

/-- A configuration that replaces the one in use finds no grant and leaves none. -/
theorem State.GrantsMatch.adopt (matched : s.GrantsMatch) (free : ∀ j, s.grant? j = none) (idle : s.storeOp = none)
    (c : Configuration) : (s.adopt c).GrantsMatch ∧ (s.adopt c).storeOp = none := by
  have calm : ∀ (t : State) (ks : List SectorIx), Calm t
      (((((t.setSpeeds c.speeds).refreshAll).retireSectors ks).placeExposed.deriveMode).commit) := fun t ks =>
    (Calm.setSpeeds t c.speeds).trans <| (Calm.refreshAll _).trans <| (Calm.retireSectors ..).trans <|
      (Calm.placeExposed _).trans <| (Calm.deriveMode _).trans (.commit _)
  have records : s.replaceConfiguration c = (s.replaceRecords c).setSpeeds c.speeds := rfl
  have grants : (s.replaceRecords c).grants = s.grants := by rw [State.replaceRecords]
  have still : (s.replaceRecords c).storeOp = none := by rw [State.replaceRecords]; exact idle
  have replaced : (s.replaceRecords c).GrantsMatch := by
    refine .of_free (fun j => ?_) fun j => ?_
    · rw [State.grant?, grants]
      exact free j
    · rw [State.replaceRecords_jack]
      exact Jack.reconfigure_ne_granted (by simp [(matched j).1, free j]) _
  unfold State.adopt
  rw [records]
  exact ⟨(calm _ _).matched replaced, (calm _ _).storeOp.trans still⟩

theorem State.GrantsSound.endLoad (h : s.GrantsSound) (loading : s.storeOp = some .load) (intact : Bool) :
    (s.endLoad intact).GrantsSound := by
  unfold State.endLoad
  split
  · obtain ⟨matched, idle⟩ := State.GrantsMatch.adopt (s := { s with storeOp := none, storeBad := false }) h.matched
      (h.load (.inl loading)).2.2 rfl s.store.contents
    exact matched.respond idle ..
  · exact State.GrantsMatch.respond (by exact h.matched) rfl ..

theorem State.GrantsSound.endFactory (h : s.GrantsSound) (loading : s.storeOp = some .factory) :
    s.endFactory.GrantsSound := by
  obtain ⟨matched, idle⟩ := State.GrantsMatch.adopt (s := { s with storeOp := none }) h.matched
    (h.load (.inr loading)).2.2 rfl Configuration.factory
  unfold State.endFactory
  exact matched.respond idle ..

/-! ### Start-up (R171, R172) -/

theorem rebuildJack_ne_granted (v : JackLive) (d : Option JackDef) : (rebuildJack v d).live.state ≠ .granted := by
  unfold rebuildJack
  split
  · decide
  · dsimp only
    split_ifs with undef granted
    · decide
    · exact nofun
    · exact granted

theorem State.deliver_jacks (s : State) (k : SectorIx) (n : Nat) : (s.deliver k n).jacks = s.jacks := by
  rcases s.deliver_cases k n with e | e <;> rw [e]
  · rfl
  · exact State.retireSector_jacks ..

theorem State.credit_jacks (s : State) (n : Nat) : (s.credit n).jacks = s.jacks :=
  State.credit_induction (P := fun t => t.jacks = s.jacks) s
    (fun t inc h => State.interval_induction (P := fun u => u.jacks = s.jacks) t
      (fun u k n h => (u.deliver_jacks k n).trans h) inc h) rfl n

/-- After either path of the sequence no jack is GRANTED. -/
theorem State.rebuild_ne_granted (s : State) (c : Configuration) (j : JackIx) :
    ((s.rebuild c).creditOutage.jack j).live.state ≠ .granted := by
  have credited : ∀ t : State, t.creditOutage.jack j = t.jack j := fun t => by
    unfold State.creditOutage
    rw [State.placeExposed_jack]
    exact congrArg (fun v : Vector Jack 96 => v[j]) (t.credit_jacks _)
  have refreshed : ∀ t : State, t.refreshAll.jack j = t.jack j := fun _ => rfl
  rw [credited, State.rebuild, State.retireSectors_jack, refreshed, State.rebuildRecords_jack]
  exact rebuildJack_ne_granted _ _

theorem State.loseDeck_ne_granted (s : State) (c : Configuration) (j : JackIx) :
    ((s.loseDeck c).jack j).live.state ≠ .granted := by
  rw [State.loseDeck_eq, State.clearLive_jack]
  exact Jack.clear_ne_granted _

/-- The start-up values of the Grant Unit and the store fit a deck with no GRANTED jack. -/
theorem State.startBlocks_grantsSound (left : ∀ j, (s.jack j).live.state ≠ .granted) (c : Configuration) (battery : Nat) :
    (s.startBlocks c battery).GrantsSound := by
  have free : ∀ j, (s.startBlocks c battery).grant? j = none := fun j => by simp [State.startBlocks, State.grant?]
  exact State.GrantsMatch.sound_of_idle (.of_free free left) (State.not_loading_of_none rfl)

theorem State.startUpFound_grantsSound (s : State) (storeGood retainedGood : Bool) (battery : Nat) :
    (s.startUpFound storeGood retainedGood battery).GrantsSound := by
  unfold State.startUpFound
  dsimp only
  refine (Calm.rewrite _).sound (State.startBlocks_grantsSound (fun j => ?_) ..)
  have derived : ∀ t : State, t.deriveMode.jack j = t.jack j := fun _ => rfl
  rw [derived]
  split
  · exact State.rebuild_ne_granted _ _ j
  · exact State.loseDeck_ne_granted _ _ j

end Sys2Proof.Machine
end

section
/-! SUPPORT. Every command, and so every step, keeps the grants in step with the jacks and a load in progress quiet. -/

namespace Sys2Proof.Machine

variable {s t : State}

theorem whenRunning_grantsSound {f : State → State} (h : whenRunning s f = .next t) (sound : s.GrantsSound)
    (kept : (f s).GrantsSound) : t.GrantsSound := by
  rcases whenRunning_cases s h with ⟨_, rfl⟩ | ⟨_, rfl⟩
  · exact (Calm.settle _).sound kept
  · exact sound

/-- A request row, by its frame. -/
theorem State.GrantsSound.exec_frame {c : Instr} {f : Frame} (row : frame? (seenBy c) c = some f) (sound : s.GrantsSound)
    (h : exec c s = .next t) : t.GrantsSound := by
  rcases exec_of_frame row s with e | e <;> rw [e] at h
  · cases h
    exact sound
  · exact whenRunning_grantsSound h sound (sound.onFrame fun u hu idle => hu.takeFrame idle ..)

theorem Calm.stamp (s : State) : Calm s { s with retained := { s.retained with stamp := s.clock } } :=
  .of_eq rfl rfl rfl rfl rfl

theorem Calm.matureDeck (s : State) : Calm s s.matureDeck :=
  (Calm.interval ..).trans <| (Calm.stamp _).trans (.rewrite _)

theorem Calm.decideLine (s : State) : Calm s s.decideLine := by
  have decided : Calm s { s with holdTimer := false, holdFilter := if s.holdLow then .asserted else .negated } :=
    .of_eq rfl rfl rfl rfl rfl
  unfold State.decideLine
  dsimp only
  split
  · exact decided
  · exact decided.trans (.of_eq rfl rfl rfl rfl rfl)
  · exact decided.trans (.placePart ..)
  · exact decided.trans (.placePart ..)
  · exact decided
  · exact decided

theorem Calm.gapDiscard_serving (s : State) (p : Port) : Calm s (s.gapDiscard p (.serving [])) := by
  rw [State.gapDiscard, State.setReceiver, State.countPort, State.setPort_setPort]
  exact .setPort s p fun _ _ => ⟨[], rfl⟩

theorem State.GrantsSound.gapDiscard (h : s.GrantsSound) {p : Port} (idle : p = .console → ¬ s.Loading) (r : Receiver) :
    (s.gapDiscard p r).GrantsSound := by
  rw [State.gapDiscard, State.setReceiver, State.countPort, State.setPort_setPort]
  exact h.setPort idle _

theorem State.GrantsSound.answerLeft (h : s.GrantsSound) (p : Port) : (s.answerLeft p).GrantsSound := by
  unfold State.answerLeft
  split
  · next receiver =>
    have opened : (s.reopen p).GrantsSound := h.setPort (h.idle (by simp [receiver])) _
    split
    · unfold State.afterConsole
      split
      · exact opened
      · exact opened.matched.halt _
      · exact opened.matched.halt _
    · exact opened
  all_goals exact h

/-! ### The events that are no frames -/

section Events

variable (sound : s.GrantsSound)

include sound

theorem execConfigSaveEnd_grantsSound {good : Bool} (h : execConfigSaveEnd good s = .next t) : t.GrantsSound := by
  refine whenRunning_grantsSound h sound ?_
  split
  · exact sound.matched.endSave ..
  all_goals exact sound

theorem execConfigLoadEnd_grantsSound {intact : Bool} (h : execConfigLoadEnd intact s = .next t) : t.GrantsSound := by
  refine whenRunning_grantsSound h sound ?_
  split
  · next loading => exact sound.endLoad loading intact
  all_goals exact sound

theorem execConfigFactoryEnd_grantsSound (h : execConfigFactoryEnd s = .next t) : t.GrantsSound := by
  refine whenRunning_grantsSound h sound ?_
  split
  · next loading => exact sound.endFactory loading
  all_goals exact sound

theorem execFrameCheckFail_grantsSound {p : Port} {code : Byte} {item : Item} {payload : List Byte}
    (h : execFrameCheckFail p code item payload s = .next t) : t.GrantsSound :=
  whenRunning_grantsSound h sound (sound.onFrame fun _ hu idle => hu.checkFail idle ..)

theorem execFrameLengthDiscard_grantsSound {p : Port} (h : execFrameLengthDiscard p s = .next t) : t.GrantsSound :=
  whenRunning_grantsSound h sound ((Calm.lengthDiscard s p).sound sound)

theorem execFrameOverrunDiscard_grantsSound {p : Port} (h : execFrameOverrunDiscard p s = .next t) : t.GrantsSound := by
  refine whenRunning_grantsSound h sound ?_
  split
  · exact (Calm.overrunDiscard s p).sound sound
  all_goals exact sound

theorem execGapTimerExpiry_grantsSound {p : Port} (h : execGapTimerExpiry p s = .next t) : t.GrantsSound := by
  refine whenRunning_grantsSound h sound ?_
  split
  · next receiver => exact sound.gapDiscard (sound.idle (by simp [receiver])) _
  · exact (Calm.gapDiscard_serving s p).sound sound
  all_goals exact sound

theorem execAnswerSent_grantsSound {p : Port} (h : execAnswerSent p s = .next t) : t.GrantsSound :=
  whenRunning_grantsSound h sound (sound.answerLeft p)

theorem execAliveTimerExpiry_grantsSound {p : Port} (h : execAliveTimerExpiry p s = .next t) : t.GrantsSound := by
  refine whenRunning_grantsSound h sound ?_
  split
  · exact (Calm.setAlive ..).sound sound
  · exact sound

theorem execGrantExpiry_grantsSound {j : JackIx} (h : execGrantExpiry j s = .next t) : t.GrantsSound := by
  refine whenRunning_grantsSound h sound ?_
  split
  · exact (Calm.expire s j).sound sound
  · exact sound

theorem execProbeSampleExpiry_grantsSound {samples : Vector Int 12} {battery : Nat}
    (h : execProbeSampleExpiry samples battery s = .next t) : t.GrantsSound := by
  refine whenRunning_grantsSound h sound ?_
  split
  · exact sound.of_eq rfl rfl rfl rfl rfl
  · exact sound

theorem execMaturityIntervalExpiry_grantsSound (h : execMaturityIntervalExpiry s = .next t) : t.GrantsSound := by
  refine whenRunning_grantsSound h sound ?_
  split
  · exact (Calm.matureDeck s).sound sound
  · exact sound

theorem execHoldLineChange_grantsSound {low : Bool} (h : execHoldLineChange low s = .next t) : t.GrantsSound := by
  cases h
  dsimp only
  split <;> exact sound.of_eq rfl rfl rfl rfl rfl

theorem execHoldFilterExpiry_grantsSound (h : execHoldFilterExpiry s = .next t) : t.GrantsSound := by
  refine whenRunning_grantsSound h sound ?_
  split
  · exact (Calm.decideLine s).sound sound
  · exact sound

theorem execDeckClockAdvance_grantsSound (h : execDeckClockAdvance s = .next t) : t.GrantsSound := by
  cases h
  exact sound.of_eq rfl rfl rfl rfl rfl

theorem execRunMarkBreak_grantsSound (h : execRunMarkBreak s = .next t) : t.GrantsSound := by
  cases h
  split
  · exact sound.of_eq rfl rfl rfl rfl rfl
  · exact sound

theorem execPowerOn_grantsSound (h : execPowerOn s = .next t) : t.GrantsSound := by
  unfold execPowerOn at h
  split at h <;> cases h
  · split <;> exact sound.matched.halt _
  all_goals exact sound

theorem execResetLineLow_grantsSound (h : execResetLineLow s = .next t) : t.GrantsSound := by
  have low : ({ s with resetLow := true } : State).GrantsSound := sound.of_eq rfl rfl rfl rfl rfl
  dsimp only [execResetLineLow] at h
  split at h <;> cases h
  · exact low
  all_goals exact low.matched.halt _

theorem execResetLineHigh_grantsSound (h : execResetLineHigh s = .next t) : t.GrantsSound := by
  have high : ({ s with resetLow := false } : State).GrantsSound := sound.of_eq rfl rfl rfl rfl rfl
  dsimp only [execResetLineHigh] at h
  split at h <;> cases h
  · exact high.matched.halt _
  all_goals exact high

theorem execStartUpSequence_grantsSound {retainedIntact storeIntact : Bool} {battery : Nat}
    (h : execStartUpSequence retainedIntact storeIntact battery s = .next t) : t.GrantsSound := by
  unfold execStartUpSequence at h
  split at h <;> cases h
  · exact (Calm.settle _).sound (State.startUpFound_grantsSound ..)
  all_goals exact sound

theorem execByteReceived_grantsSound {p : Port} {b : Byte} {seen : Findings} (h : execByteReceived p b seen s = .next t) :
    t.GrantsSound := by
  cases h
  split
  · exact sound.hear ..
  · exact sound

end Events

/-! ### Commands -/

theorem State.GrantsSound.exec (sound : s.GrantsSound) {c : Instr} (h : exec c s = .next t) : t.GrantsSound := by
  cases row : frame? (seenBy c) c with
  | some f => exact sound.exec_frame row h
  | none =>
    cases c with
    | configSaveEnd good => exact execConfigSaveEnd_grantsSound sound h
    | configLoadEnd intact => exact execConfigLoadEnd_grantsSound sound h
    | configFactoryEnd => exact execConfigFactoryEnd_grantsSound sound h
    | frameCheckFail p code item payload => exact execFrameCheckFail_grantsSound sound h
    | frameLengthDiscard p => exact execFrameLengthDiscard_grantsSound sound h
    | frameOverrunDiscard p => exact execFrameOverrunDiscard_grantsSound sound h
    | gapTimerExpiry p => exact execGapTimerExpiry_grantsSound sound h
    | answerSent p => exact execAnswerSent_grantsSound sound h
    | aliveTimerExpiry p => exact execAliveTimerExpiry_grantsSound sound h
    | grantExpiry j => exact execGrantExpiry_grantsSound sound h
    | probeSampleExpiry samples battery => exact execProbeSampleExpiry_grantsSound sound h
    | maturityIntervalExpiry => exact execMaturityIntervalExpiry_grantsSound sound h
    | holdLineChange low => exact execHoldLineChange_grantsSound sound h
    | holdFilterExpiry => exact execHoldFilterExpiry_grantsSound sound h
    | deckClockAdvance => exact execDeckClockAdvance_grantsSound sound h
    | powerOn => exact execPowerOn_grantsSound sound h
    | powerFail => cases h; exact sound.matched.halt _
    | resetLineLow => exact execResetLineLow_grantsSound sound h
    | resetLineHigh => exact execResetLineHigh_grantsSound sound h
    | runMarkBreak => exact execRunMarkBreak_grantsSound sound h
    | startUpSequence retainedIntact storeIntact battery => exact execStartUpSequence_grantsSound sound h
    | byteReceived p b seen => exact execByteReceived_grantsSound sound h
    | diagnose p item payload seen => simp [frame?, seenBy] at row
    | _ => cases row

end Sys2Proof.Machine

open Sys2Proof Sys2Proof.Machine

/-- Settles O55: a frame on the console meets no load, and every other event is calm or ends the store request. -/
theorem grantsMatchEveryStep : Obligations.GrantsMatchEveryStep := by
  intro s t matched load run
  have sound : s.GrantsSound := State.grantsSound_iff.mpr ⟨matched, load⟩
  refine State.grantsSound_iff.mp ?_
  unfold step at run
  split at run
  · cases run
    exact sound.of_eq rfl rfl rfl rfl rfl
  · next c rest waiting =>
    exact State.GrantsSound.exec (s := { s with pending := rest }) (sound.of_eq rfl rfl rfl rfl rfl) run

end

section
/-! SUPPORT. A request whose rule reads the alive timers, or drives the outputs on its way: what it serves on the state that
its own frame leaves is the answer, whatever it makes of the PERMIT contacts, which the end of the command drives again. -/

namespace Sys2Proof.Machine

/-- The same deck with the PERMIT contacts driven otherwise. -/
def State.withPermits (s : State) (a b : Bool) : State := { s with permitA := a, permitB := b }

theorem State.withPermits_respond (s : State) (a b : Bool) (p : Port) (code : Byte) (r : Reply) :
    (s.withPermits a b).respond p code r = (s.respond p code r).withPermits a b := by cases r <;> rfl

/-- A request served on the state that its frame leaves. -/
theorem request_answers_after {r : Request} {p : Port} {n : Nat} {serve : State → State × Reply} {s u : State}
    {reply : Reply} {a : Answer} {x y : Bool} (hears : s.Hears p) (allowed : r.allowed p = true)
    (lengthOk : r.lengthOk n = true) (link : u.link = s.link)
    (served : serve (s.withLink (s.linkAfterFrame p)) = ((u.withLink (s.linkAfterFrame p)).withPermits x y, reply))
    (answer : reply.answer? r.code = some a) : AnswersWith (request r p n serve s) p a s u := by
  let fixed : State → State × Reply := fun t => (u.withLink t.link, reply)
  have same : request r p n serve s = request r p n fixed s := by
    have short := Request.le_of_lengthOk lengthOk
    rw [request_hears s r p n serve hears short, request_hears s r p n fixed hears short, State.take_cases,
      State.take_cases, State.goodFrame_setReceiver, served, allowed, lengthOk]
    simp only [Bool.true_eq_false, if_false, State.withPermits_respond]
    rfl
  rw [same]
  refine request_answers (fun _ _ => rfl) hears allowed lengthOk ?_ answer
  show (u.withLink s.link, reply) = (u, reply)
  rw [← link, u.withLink_link]

/-! ### Ports that are stations -/

theorem Port.station?_eq_some {p : Port} {st : Station} (h : p.station? = some st) :
    p = .stationA ∧ st = .A ∨ p = .stationB ∧ st = .B := by
  cases p <;> cases h <;> simp

/-- A station may send each of its four requests. -/
theorem Request.allowed_station {p : Port} {st : Station} (h : p.station? = some st) :
    Request.strokeDemand.allowed p = true ∧ Request.strokeReport.allowed p = true ∧
      Request.strokeCancel.allowed p = true ∧ Request.stationView.allowed p = true := by
  rcases Port.station?_eq_some h with ⟨rfl, -⟩ | ⟨rfl, -⟩ <;> exact ⟨rfl, rfl, rfl, rfl⟩

/-! ### STATION VIEW (R105) -/

theorem Mode.moving_iff (m : Mode) : m.moving = true ↔ m = .rise ∨ m = .crawl := by cases m <;> simp [Mode.moving]

/-- The frame of a station makes its port alive, so its contact is closed exactly on a moving deck without holds. -/
theorem State.permitOn_withLink (s : State) {p : Port} {st : Station} (h : p.station? = some st)
    (running : s.phase = .running) :
    (s.withLink (s.linkAfterFrame p)).permitOn st = decide ((s.mode = .rise ∨ s.mode = .crawl) ∧ s.holds = []) := by
  have alive : (s.withLink (s.linkAfterFrame p)).alive st = true := by
    rcases Port.station?_eq_some h with ⟨rfl, rfl⟩ | ⟨rfl, rfl⟩ <;> rfl
  have phase : (s.withLink (s.linkAfterFrame p)).phase = .running := running
  have mode : (s.withLink (s.linkAfterFrame p)).mode = s.mode := rfl
  have holds : (s.withLink (s.linkAfterFrame p)).holds = s.holds := rfl
  rw [State.permitOn, alive, phase, mode, holds, Bool.eq_iff_iff]
  simp [Mode.moving_iff]

theorem State.stationGrants_eq (s : State) (st : Station) :
    s.stationGrants st = (List.finRange 96).filterMap fun j =>
      (s.grant? j).bind fun g => if g.station = st then some (j, g) else none := by
  unfold State.stationGrants
  congr 1
  funext j
  cases s.grant? j <;> rfl

theorem grantBytes_eq : grantBytes = fun g : JackIx × Grant =>
    be1 g.1.val ++ be2 (g.2.length + (if g.2.mode = .crawl then 32768 else 0)) ++ be4 g.2.expires := by
  funext g
  simp [grantBytes, flag, beq_iff_eq]

theorem stationView_answers {p : Port} {st : Station} {item : Item} {page : Byte} {s : State} {reply : Reply} {a : Answer}
    (station : p.station? = some st) (hears : s.Hears p)
    (served : serveStationView p [page] (s.withLink (s.linkAfterFrame p)) = (s.withLink (s.linkAfterFrame p), reply))
    (answer : reply.answer? 0x23 = some a) : Answered (.stationView p item [page]) p a s s :=
  request_answers_after (x := s.permitA) (y := s.permitB) hears (Request.allowed_station station).2.2.2 rfl rfl served
    answer

end Sys2Proof.Machine

open Sys2Proof Sys2Proof.Machine

/-- Settles O16: the view is read off the deck that the frame finds, and the contact as the frame leaves it. -/
theorem stationViewAnswers : Obligations.StationViewAnswers := by
  refine ⟨fun p st item page s station hears high => ?_, fun p st item page s station hears low => ?_⟩
  · refine stationView_answers station hears (reply := .refuse .range 1) ?_ rfl
    rw [serveStationView, station]
    exact if_pos high
  · refine stationView_answers station hears (reply := .accept ((s.withLink (s.linkAfterFrame p)).viewBytes st page.toNat))
      ?_ ?_
    · rw [serveStationView, station]
      exact if_neg (Nat.not_lt.mpr low)
    · rw [Reply.answer?, State.viewBytes, State.permitOn_withLink s station hears.1, boolByte, flag_decide,
        State.stationGrants_eq, grantBytes_eq]
      simp only [List.flatMap_cons, List.flatMap_nil, List.append_nil, List.append_assoc]
      rfl

end

section
/-! SUPPORT. The console's jack requests of a GRANTED jack (R83), and the tests of a demand's fields and deck (R84, R85). -/

namespace Sys2Proof.Machine

variable {s u : State} {item : Item} {j : JackIx}

/-! ### A GRANTED jack -/

theorem State.definedJack?_of_granted (h : item.toNat = j.val) (granted : (s.jack j).live.state = .granted) :
    s.definedJack? item = some j := State.definedJack?_eq_some h (by simp [granted])

theorem serveSurvey_of_granted {payload : List Byte} (h : item.toNat = j.val) (low : u32At payload 0 ≤ 2000000)
    (qualifier : u8At payload 4 ≤ 1) (granted : (s.jack j).live.state = .granted) :
    serveSurvey item payload s = (s, .refuse .busy 0) := by
  rw [serveSurvey_of_jack (State.definedJack?_of_granted h granted), if_neg (by omega), if_neg (by omega),
    if_pos granted]

theorem serveJackSet_of_granted (h : item.toNat = j.val) (granted : (s.jack j).live.state = .granted) :
    serveJackExclude item s = (s, .refuse .busy 0) ∧ serveJackInclude item s = (s, .refuse .busy 0) ∧
      serveJackClear item s = (s, .refuse .busy 0) := by
  have named := State.definedJack?_of_granted h granted
  simp [serveJackExclude, serveJackInclude, serveJackClear, named, granted]

theorem serveJackDefine_of_granted {station group sector : Byte} (h : item.toNat = j.val)
    (setting : s.mode.settingUp = true) (hst : station.toNat < 2) (hg : group.toNat < 8) (hk : sector.toNat < 24)
    (granted : (s.jack j).live.state = .granted) :
    serveJackDefine item [1, station, group, sector] s = (s, .refuse .busy 0) := by
  obtain ⟨st, code⟩ := Station.exists_code hst
  rw [serveJackDefine_good_fields (g := ⟨_, hg⟩) (k := ⟨_, hk⟩) h code rfl rfl, if_neg (by simp [setting]),
    if_pos granted]

theorem serveJackUndefine_of_granted (h : item.toNat = j.val) (setting : s.mode.settingUp = true)
    (granted : (s.jack j).live.state = .granted) : serveJackUndefine item s = (s, .refuse .busy 0) := by
  rw [serveJackUndefine_of_jack h, if_neg (by simp [setting]), if_pos granted]

/-! ### The fields of a demand (R84) -/

theorem parseScope_eq_none {b : Byte} (high : 8 ≤ b.toNat) (ne : b ≠ 0xFF) : parseScope b.toNat = none := by
  have all : b.toNat ≠ 0xFF := fun e => ne (BitVec.eq_of_toNat_eq e)
  rw [parseScope, if_neg all, index?_eq_none high]
  rfl

theorem parseScope_all : parseScope (0xFF : Byte).toNat = some none := rfl

theorem parseScope_group {b : Byte} {g : Fin 8} (h : b.toNat = g.val) : parseScope b.toNat = some (some g) := by
  rw [parseScope, if_neg (by omega), index?_eq_some h]
  rfl

theorem exists_parseScope {b : Byte} (h : b.toNat < 8 ∨ b = 0xFF) : ∃ scope, parseScope b.toNat = some scope := by
  rcases h with h | rfl
  · exact ⟨_, parseScope_group (g := ⟨_, h⟩) rfl⟩
  · exact ⟨_, parseScope_all⟩

/-! ### STROKE DEMAND is served without the link -/

/-- A demand under way on the same deck with another link. -/
def Demand.withLink (d : Demand) (l : Link) : Demand := { d with state := d.state.withLink l }

theorem Demand.step_withLink (hMin : Option Nat) (st : Station) (most : Nat) (d : Demand) (l : Link) (j : JackIx) :
    (d.withLink l).step hMin st most j = (d.step hMin st most j).withLink l := by
  have judged : (d.withLink l).state.judge hMin st most d.grants.length j = d.state.judge hMin st most d.grants.length j :=
    rfl
  cases h : d.state.judge hMin st most d.grants.length j with
  | inl reason =>
    rw [Demand.step_of_withheld hMin most h, Demand.step_of_withheld hMin most (judged.trans h)]
    rfl
  | inr length =>
    rw [Demand.step_of_granted hMin most h, Demand.step_of_granted hMin most (judged.trans h)]
    rfl

theorem Demand.walk_withLink (hMin : Option Nat) (st : Station) (most : Nat) (d : Demand) (l : Link) (js : List JackIx) :
    (d.withLink l).walk hMin most st js = (d.walk hMin most st js).withLink l := by
  induction js generalizing d with
  | nil => rfl
  | cons j js ih =>
    rw [Demand.walk, Demand.walk, List.foldl_cons, List.foldl_cons, Demand.step_withLink]
    exact ih _

theorem State.candidates_withLink (s : State) (l : Link) (st : Station) (scope : Option (Fin 8)) :
    (s.withLink l).candidates st scope = s.candidates st scope := by
  rw [State.candidates_eq_insertionSort, State.candidates_eq_insertionSort]
  rfl

theorem State.demand_withLink (s : State) (l : Link) (st : Station) (scope : Option (Fin 8)) (most : Nat) :
    (s.withLink l).demand st scope most = (s.demand st scope most).withLink l := by
  rw [State.demand_eq_walk, State.demand_eq_walk, State.candidates_withLink]
  exact Demand.walk_withLink s.hMin st most ⟨s, [], none⟩ l (s.candidates st scope)

/-- The bytes that answer a demand that passed the tests of R85. -/
def Demand.bytes (d : Demand) (expiry : Nat) : List Byte :=
  let second := if d.grants.isEmpty then none else some expiry
  match d.withheld with
  | some (reason, j) => demandBytes reason j.val second d.grants
  | none => demandBytes .none 0xFF second d.grants

section Demand

variable {p : Port} {st : Station} {scopeByte count : Byte} {scope : Option (Fin 8)}

theorem serveStrokeDemand_bad_scope (station : p.station? = some st) (parse : parseScope scopeByte.toNat = none) :
    serveStrokeDemand p [scopeByte, count] s = (s, .refuse .range 1) := by
  have parse' : parseScope (u8At [scopeByte, count] 0) = none := parse
  simp only [serveStrokeDemand, station, parse']

/-- The tests of R84 and R85 in their order. -/
theorem serveStrokeDemand_eq (station : p.station? = some st) (parse : parseScope scopeByte.toNat = some scope)
    (s : State) :
    serveStrokeDemand p [scopeByte, count] s =
      if 16 < count.toNat then (s, .refuse .range 2)
      else if s.mode.moving = false then (s, .accept (demandBytes .mode 0xFF none []))
      else if s.holds ≠ [] then (s, .accept (demandBytes .held 0xFF none []))
      else ((s.demand st scope (mostGrants count.toNat)).state.commit,
        .accept ((s.demand st scope (mostGrants count.toNat)).bytes s.expirySecond)) := by
  have parse' : parseScope (u8At [scopeByte, count] 0) = some scope := parse
  simp only [serveStrokeDemand, station, parse', Bool.not_eq_true', List.isEmpty_eq_false_iff]
  rfl

theorem serveStrokeDemand_linkBlind (p : Port) (payload : List Byte) : LinkBlind (serveStrokeDemand p payload) := by
  intro s l
  unfold serveStrokeDemand
  cases p.station? with
  | none => rfl
  | some st =>
    cases parseScope (u8At payload 0) with
    | none => rfl
    | some scope =>
      refine ite_withLink Iff.rfl rfl (ite_withLink Iff.rfl rfl (ite_withLink Iff.rfl rfl ?_))
      rw [State.demand_withLink]
      rfl

theorem strokeDemand_answers {reply : Reply} {a : Answer} (station : p.station? = some st) (hears : s.Hears p)
    (served : serveStrokeDemand p [scopeByte, count] s = (u, reply)) (answer : reply.answer? 0x20 = some a) :
    Answered (.strokeDemand p item [scopeByte, count]) p a s u :=
  request_answers (serveStrokeDemand_linkBlind p _) hears (Request.allowed_station station).1 rfl served answer

end Demand

/-- The driven state of a station's PERMIT contact (R127). -/
def State.contact (s : State) : Station → Bool
  | .A => s.permitA
  | .B => s.permitB

/-- A station's contact after its own good frame, on a moving deck without holds (R126, R127). -/
theorem AnswersWith.permit {o : Host.Outcome State Fault Refusal} {p : Port} {st : Station} {a : Answer}
    (h : AnswersWith o p a s u) (station : p.station? = some st) (running : u.phase = .running)
    (moving : u.mode.moving = true) (free : u.holds = []) :
    ∃ t, o = .next t ∧ t.contact st = true := by
  obtain ⟨t, e, -, -, aliveA, aliveB, same, ⟨permits, -⟩⟩ := h
  have phase : t.phase = .running := by rw [same]; exact running
  have mode : t.mode = u.mode := by rw [same]
  have holds : t.holds = [] := by rw [same]; exact free
  refine ⟨t, e, ?_⟩
  obtain ⟨permitA, permitB⟩ := permits
  rcases Port.station?_eq_some station with ⟨rfl, rfl⟩ | ⟨rfl, rfl⟩
  · simp [State.contact, permitA, State.permitOn, State.alive, phase, mode, moving, holds, aliveA]
  · simp [State.contact, permitB, State.permitOn, State.alive, phase, mode, moving, holds, aliveB]

end Sys2Proof.Machine

open Sys2Proof Sys2Proof.Machine

/-- Settles O23: each request's BUSY test comes after the tests that these requests pass. -/
theorem grantedJacksAreBusy : Obligations.GrantedJacksAreBusy := by
  intro s item j hears hitem granted
  obtain ⟨exclude, include', clear⟩ := serveJackSet_of_granted hitem granted
  refine ⟨fun payload length low qualifier => ?_, jackSetExclude_answers hears exclude rfl,
    jackSetInclude_answers hears include' rfl, jackSetClear_answers hears clear rfl, fun mode => ⟨?_, ?_⟩⟩
  · exact survey_answers hears length (serveSurvey_of_granted hitem low qualifier granted) rfl
  · intro station group sector hst hg hk
    exact jackDefine_answers hears
      (serveJackDefine_of_granted hitem (Mode.settingUp_eq_true mode) hst hg hk granted) rfl
  · intro tail length
    exact jackUndefine_answers hears length
      (serveJackUndefine_of_granted hitem (Mode.settingUp_eq_true mode) granted) rfl

/-- Settles O33: the fields come first, then the mode, then the holds; the frame itself has made the port alive. -/
theorem demandTestsTheDeckFirst : Obligations.DemandTestsTheDeckFirst := by
  refine ⟨fun p st item scope count s station hears => ⟨fun high ne => ?_, fun good many => ?_⟩,
    fun p st item scope count s station hears good few => ⟨fun still => ?_, fun moving held => ?_, fun moving free => ?_⟩⟩
  · exact strokeDemand_answers station hears (serveStrokeDemand_bad_scope station (parseScope_eq_none high ne)) rfl
  all_goals
    obtain ⟨scope', parse⟩ := exists_parseScope good
    have table := serveStrokeDemand_eq (count := count) station parse s
  · rw [if_pos many] at table
    exact strokeDemand_answers station hears table rfl
  · have stopped : s.mode.moving = false := by rcases still with e | e <;> rw [e] <;> rfl
    rw [if_neg (by omega), if_pos stopped] at table
    exact strokeDemand_answers station hears table rfl
  · rw [if_neg (by omega), if_neg (by simp [s.mode.moving_iff.mpr moving]), if_pos held] at table
    exact strokeDemand_answers station hears table rfl
  · have moves := s.mode.moving_iff.mpr moving
    rw [if_neg (by omega), if_neg (by simp [moves]), if_neg (by simpa using free)] at table
    have walked := Demand.walked s.hMin (mostGrants count.toNat) s st (s.candidates_nodup st scope')
    rw [State.demand_eq_walk, walked.state] at table
    refine (strokeDemand_answers (item := item) station hears table rfl).permit station ?_ ?_ ?_
    · simpa using hears.1
    · simpa using moves
    · simpa using free

end

section
/-! SUPPORT. The grants, the verdicts and the answer of a demand, read off its walk (R86 to R91). -/

namespace Sys2Proof.Machine

variable {s : State} {st : Station} {hMin : Option Nat} {most : Nat} {before after : List JackIx} {j : JackIx}

/-! ### The tests of R87 by their codes -/

theorem State.cadencePassed_eq (s : State) (r : Jack) :
    (!s.cadencePassed r) = r.live.lastSecond.any fun t =>
      decide ((s.retained.counter : Int) - t < if s.mode = .crawl then s.active.crawlInt * 60 else s.active.cadence) := by
  have cadence : s.cadence = if s.mode = .crawl then s.active.crawlInt * 60 else s.active.cadence := by
    unfold State.cadence
    cases s.mode <;> rfl
  unfold State.cadencePassed
  cases r.live.lastSecond with
  | none => rfl
  | some t =>
    rw [← cadence]
    show (!decide ((s.cadence : Int) ≤ (s.retained.counter : Int) - t)) =
      decide ((s.retained.counter : Int) - t < s.cadence)
    rw [← decide_not]
    exact decide_eq_decide.mpr Int.not_le

theorem State.judgeAt_code (s : State) (hMin : Option Nat) (st : Station) (most live made : Nat) (r : Jack) :
    (s.judgeAt hMin st most live made r).map Withheld.code id =
      if r.live.state ≠ .ready then .inl 3
      else if r.live.lastSecond.any fun t => decide ((s.retained.counter : Int) - t <
        if s.mode = .crawl then s.active.crawlInt * 60 else s.active.cadence) then .inl 4
      else
        match s.grantLength hMin r with
        | .inl .ceiling => .inl 6
        | .inl .level => .inl 7
        | .inl .crawl => .inl 8
        | .inr length =>
          if r.live.rod < length + 500 then .inl 5
          else if s.active.budget st ≤ live then .inl 9
          else if most ≤ made then .inl 10
          else .inr length := by
  rw [State.judgeAt, State.cadencePassed_eq]
  simp only [apply_ite (Sum.map Withheld.code id)]
  congr 2
  split
  · next limit e =>
    rw [e]
    cases limit <;> rfl
  · next length e => simp only [e, apply_ite (Sum.map Withheld.code id)]; rfl

theorem Sum.map_eq_inr_iff {α β γ : Type} {f : α → β} {x : α ⊕ γ} {c : γ} : x.map f id = .inr c ↔ x = .inr c := by
  cases x <;> simp

theorem Sum.map_eq_inl_iff {α β γ : Type} {f : α → β} {x : α ⊕ γ} {b : β} :
    x.map f id = .inl b ↔ ∃ a, x = .inl a ∧ f a = b := by
  cases x <;> simp

/-! ### The deck after a demand -/

theorem State.granting_eq (s : State) (st : Station) (grants : List (JackIx × Nat)) :
    s.granting st grants = { s with
      jacks := Vector.ofFn fun j : JackIx =>
        match grants.find? fun g : JackIx × Nat => g.1 == j with
        | some g => { s.jack j with live :=
            { (s.jack j).live with state := .granted, lastLength := g.2, lastSecond := some s.retained.counter } }
        | none => s.jack j
      grants := Vector.ofFn fun j : JackIx =>
        match grants.find? fun g : JackIx × Nat => g.1 == j with
        | some g => some ⟨st, g.2, s.retained.counter, min (s.retained.counter + s.active.gto) 4294967294, s.mode⟩
        | none => s.grant? j
      counters := grants.foldl
        (fun n _ => { n with grantsIssued := sat32 (n.grantsIssued + 1) }) s.counters } := by
  rw [State.granting, State.withTables]
  rfl

theorem Demand.bytes_eq (d : Demand) (expiry : Nat) :
    d.bytes expiry =
      be1 d.grants.length ++ be1 ((d.withheld.map fun w => w.1.code).getD 0) ++
        be1 ((d.withheld.map fun w => w.2.val).getD 0xFF) ++ be4? (if d.grants = [] then none else some expiry) ++
        d.grants.flatMap fun g => be1 g.1.val ++ be2 g.2 := by
  unfold Demand.bytes
  simp only [List.isEmpty_iff]
  cases d.withheld <;> rfl

/-! ### One candidate of a walk -/

/-- The walk of a demand over some of its candidates. -/
abbrev State.walked (s : State) (hMin : Option Nat) (st : Station) (most : Nat) (js : List JackIx) : Demand :=
  Demand.walk hMin most st ⟨s, [], none⟩ js

theorem State.walked_split (s : State) (hMin : Option Nat) (st : Station) (most : Nat) (before after : List JackIx)
    (j : JackIx) : s.walked hMin st most (before ++ j :: after) =
      Demand.walk hMin most st ((s.walked hMin st most before).step hMin st most j) after := List.foldl_append ..

variable (nodup : (before ++ j :: after).Nodup)

include nodup

/-- The grants made before a candidate are those of the whole walk to the candidates before it. -/
theorem State.grants_before :
    ((s.walked hMin st most (before ++ j :: after)).grants.filter fun g => before.contains g.1) =
      (s.walked hMin st most before).grants := by
  rw [List.nodup_append] at nodup
  obtain ⟨nodup, -, apart⟩ := nodup
  have early := (Demand.walked hMin most s st nodup).sub
  obtain ⟨⟨more, grants, late⟩, -⟩ := Demand.walk_adds hMin most st (s.walked hMin st most before) (j :: after)
  have all : s.walked hMin st most (before ++ j :: after) =
      Demand.walk hMin most st (s.walked hMin st most before) (j :: after) := List.foldl_append ..
  rw [all, grants, List.filter_append, List.filter_eq_self.mpr, List.filter_eq_nil_iff.mpr, List.append_nil]
  · intro g hg mem
    exact apart _ (by simpa using mem) _ (late.subset (List.mem_map_of_mem hg)) rfl
  · intro g hg
    simpa using early.subset (List.mem_map_of_mem hg)

theorem State.granted_before {i : JackIx} (hi : i ∈ before)
    (granted : i ∈ (s.walked hMin st most (before ++ j :: after)).grants.map Prod.fst) :
    i ∈ (s.walked hMin st most before).grants.map Prod.fst := by
  obtain ⟨g, hg, rfl⟩ := List.mem_map.mp granted
  rw [← State.grants_before nodup]
  exact List.mem_map_of_mem (List.mem_filter.mpr ⟨hg, by simpa using hi⟩)

/-- The judgement of a candidate is on its own record, with the grants made before it. -/
theorem State.judge_before (free : ∀ j, (s.jack j).live.state = .ready → s.grant? j = none) :
    (s.walked hMin st most before).state.judge hMin st most (s.walked hMin st most before).grants.length j =
      s.judgeAt hMin st most
        (s.liveGrants st + ((s.walked hMin st most (before ++ j :: after)).grants.filter fun g => before.contains g.1).length)
        ((s.walked hMin st most (before ++ j :: after)).grants.filter fun g => before.contains g.1).length (s.jack j) := by
  rw [State.grants_before nodup]
  rw [List.nodup_append] at nodup
  obtain ⟨nodup, -, apart⟩ := nodup
  exact (Demand.walked hMin most s st nodup).judge hMin most (fun h => apart j h j (by simp) rfl) nodup free

/-- A candidate is granted a length exactly when its judgement gives it. -/
theorem State.mem_grants_iff (length : Nat) :
    (j, length) ∈ (s.walked hMin st most (before ++ j :: after)).grants ↔
      (s.walked hMin st most before).state.judge hMin st most (s.walked hMin st most before).grants.length j =
        .inr length := by
  rw [List.nodup_append, List.nodup_cons] at nodup
  obtain ⟨nodup, ⟨later, -⟩, apart⟩ := nodup
  have early : ∀ n, (j, n) ∉ (s.walked hMin st most before).grants := fun n h =>
    apart j ((Demand.walked hMin most s st nodup).sub.subset (List.mem_map_of_mem h)) j (by simp) rfl
  obtain ⟨⟨more, grants, late⟩, -⟩ :=
    Demand.walk_adds hMin most st ((s.walked hMin st most before).step hMin st most j) after
  have new : ∀ n, (j, n) ∉ more := fun n h => later (late.subset (List.mem_map_of_mem h))
  rw [State.walked_split, grants]
  cases judged : (s.walked hMin st most before).state.judge hMin st most (s.walked hMin st most before).grants.length j with
  | inl reason =>
    rw [Demand.step_of_withheld hMin most judged]
    simp [early, new]
  | inr granted =>
    rw [Demand.step_of_granted hMin most judged]
    simp [early, new, eq_comm]

/-- The first candidate withheld is named with its reason. -/
theorem State.withheld_first {reason : Withheld}
    (all : ∀ i ∈ before, i ∈ (s.walked hMin st most (before ++ j :: after)).grants.map Prod.fst)
    (judged : (s.walked hMin st most before).state.judge hMin st most (s.walked hMin st most before).grants.length j =
      .inl reason) : (s.walked hMin st most (before ++ j :: after)).withheld = some (reason, j) := by
  have earlier := fun i hi => State.granted_before nodup hi (all i hi)
  rw [List.nodup_append] at nodup
  have none := (Demand.walked hMin most s st nodup.1).withheld earlier
  rw [State.walked_split, Demand.step_of_withheld hMin most judged]
  exact (Demand.walk_adds hMin most st _ after).2 _ (by rw [none]; rfl)

end Sys2Proof.Machine

open Sys2Proof Sys2Proof.Machine

/-- Settles O34: the grants, the deck and the answer are those of the walk, and each candidate's verdict is its judgement
on the deck before the demand with the grants made before it. -/
theorem demandGrantsItsCandidates : Obligations.DemandGrantsItsCandidates := by
  intro p st item scopeByte count scope s station hears hscope few moving held free
  dsimp only
  have parse : parseScope scopeByte.toNat = some scope := by
    rcases hscope with ⟨rfl, rfl⟩ | ⟨g, hg, rfl⟩
    · exact parseScope_all
    · exact parseScope_group hg
  have nodup := s.candidates_nodup st scope
  have served := serveStrokeDemand_eq (count := count) station parse s
  rw [if_neg (by omega), if_neg (by simp [s.mode.moving_iff.mpr moving]), if_neg (by simpa using held)] at served
  let most := mostGrants count.toNat
  have walk := Demand.walked s.hMin most s st nodup
  rw [State.demand_eq_walk, walk.state, State.granting_eq] at served
  generalize hd : Demand.walk s.hMin most st ⟨s, [], none⟩ (s.candidates st scope) = d at served walk
  have whole : s.walked s.hMin st most (s.candidates st scope) = d := hd
  have verdict : ∀ (before after : List JackIx) (j : JackIx), s.candidates st scope = before ++ j :: after →
      (s.walked s.hMin st most before).state.judge s.hMin st most (s.walked s.hMin st most before).grants.length j =
        s.judgeAt s.hMin st most (s.liveGrants st + (d.grants.filter fun g => before.contains g.1).length)
          (d.grants.filter fun g => before.contains g.1).length (s.jack j) := by
    intro before after j order
    rw [order] at nodup whole
    rw [← whole]
    exact State.judge_before nodup free
  refine ⟨d.grants, (d.withheld.map fun w => w.1.code).getD 0, (d.withheld.map fun w => w.2.val).getD 0xFF,
    ?_, walk.sub, ?_, ?_, ?_⟩
  · refine strokeDemand_answers station hears served ?_
    rw [Reply.answer?, Demand.bytes_eq]
    rfl
  · intro before after j order length
    have member := State.mem_grants_iff (s := s) (st := st) (hMin := s.hMin) (most := most) (order ▸ nodup) length
    rw [← order, whole, verdict before after j order, ← Sum.map_eq_inr_iff (f := Withheld.code)] at member
    exact member.trans (Eq.congr_left (s.judgeAt_code ..))
  · intro all
    rw [walk.withheld all]
    exact ⟨rfl, rfl⟩
  · intro before after j order all r judged
    obtain ⟨reason, withheld, rfl⟩ := Sum.map_eq_inl_iff.mp ((s.judgeAt_code ..).trans judged)
    have first := State.withheld_first (s := s) (st := st) (hMin := s.hMin) (most := most) (order ▸ nodup)
      (by rwa [← order, whole]) ((verdict before after j order).trans withheld)
    rw [← order, whole] at first
    rw [first]
    exact ⟨rfl, rfl⟩

end

section
/-! SUPPORT. STROKE CANCEL and expiry (R103, R104): the deck after some of a cancel's entries, and what each entry
answers. -/

namespace Sys2Proof.Machine

variable {s : State} {st : Station} {named rest : List Byte} {b : Byte} {j : JackIx}

/-! ### The deck after some entries -/

/-- The station holds the jack's live grant. -/
def State.holdsGrant (s : State) (st : Station) (j : JackIx) : Bool := (s.grant? j).any fun g : Grant => g.station == st

/-- Some entry names the jack, and the station holds its grant. -/
def State.closes (s : State) (st : Station) (named : List Byte) (j : JackIx) : Bool :=
  (named.any fun b : Byte => b.toNat == j.val) && s.holdsGrant st j

/-- A jack's record once its grant is cancelled (R103). -/
def Jack.returned (r : Jack) : Jack := { r with live := { r.live with state := .ready } }

/-- The deck once the entries' grants are closed. -/
def State.closing (s : State) (st : Station) (named : List Byte) : State :=
  s.withTables (Vector.ofFn fun j : JackIx => if s.closes st named j then (s.jack j).returned else s.jack j)
    (Vector.ofFn fun j : JackIx => if s.closes st named j then none else s.grant? j) s.counters

theorem State.closing_jack (s : State) (st : Station) (named : List Byte) (j : JackIx) :
    (s.closing st named).jack j = if s.closes st named j then (s.jack j).returned else s.jack j := by
  rw [State.closing, State.withTables_jack, Fin.getElem_fin, Vector.getElem_ofFn]

theorem State.closing_grant? (s : State) (st : Station) (named : List Byte) (j : JackIx) :
    (s.closing st named).grant? j = if s.closes st named j then none else s.grant? j := by
  rw [State.closing, State.withTables_grant?, Fin.getElem_fin, Vector.getElem_ofFn]

theorem State.closing_holdsGrant (s : State) (st : Station) (named : List Byte) (j : JackIx) :
    (s.closing st named).holdsGrant st j = (!s.closes st named j && s.holdsGrant st j) := by
  rw [State.holdsGrant, State.closing_grant?]
  cases h : s.closes st named j <;> simp [State.holdsGrant]

theorem State.closing_nil (s : State) (st : Station) : s.closing st [] = s := by
  refine Eq.trans (s.withTables_congr (js' := s.jacks) (gs' := s.grants) _ (fun j => ?_) fun j => ?_) s.withTables_self
  · simp [State.closes, State.jack]
  · simp [State.closes, State.grant?]

/-! ### One entry (R103) -/

/-- A deck with one jack returned to READY and its grant removed. -/
def State.returning (s : State) (j : JackIx) : State :=
  s.withTables (s.jacks.set j (s.jack j).returned) (s.grants.set j none) s.counters

theorem State.returning_jack (s : State) (j i : JackIx) :
    (s.returning j).jack i = if i = j then (s.jack j).returned else s.jack i := getElem_set_jackIx ..

theorem State.returning_grant? (s : State) (j i : JackIx) :
    (s.returning j).grant? i = if i = j then none else s.grant? i := getElem_set_jackIx ..

theorem State.returning_closes (s : State) (st : Station) (rest : List Byte) (j i : JackIx) :
    (s.returning j).closes st rest i = (!decide (i = j) && s.closes st rest i) := by
  rw [State.closes, State.holdsGrant, State.returning_grant?]
  by_cases e : i = j <;> simp [e, State.closes, State.holdsGrant]

theorem be1_toNat (b : Byte) : be1 b.toNat = [b] := by simp [be1]

/-- An entry that names a jack whose grant the station holds. -/
theorem State.cancelEntry_of_held (h : b.toNat = j.val) (held : s.holdsGrant st j = true) :
    s.cancelEntry st b.toNat = (s.returning j, b :: be1 0 ++ be1 2) := by
  have held' : ((s.grant? j).any fun g => g.station == st) = true := held
  simp only [State.cancelEntry, index?_eq_some h, held', be1_toNat]
  rfl

/-- Any other entry changes nothing, and answers the state of the jack it names. -/
theorem State.cancelEntry_of_not_held (free : ∀ j : JackIx, b.toNat = j.val → s.holdsGrant st j = false) :
    s.cancelEntry st b.toNat =
      (s, b :: be1 1 ++ be1 (match index? 96 b.toNat with
        | some j => (s.jack j).live.state.code
        | none => 0)) := by
  rw [State.cancelEntry]
  cases h : index? 96 b.toNat with
  | none => simp only [be1_toNat]; rfl
  | some j =>
    have named : b.toNat = j.val := by
      unfold index? at h
      split at h
      · cases h
        rfl
      · cases h
    have free' : ((s.grant? j).any fun g => g.station == st) = false := free j named
    simp only [free', be1_toNat]
    rfl

/-- An entry more closes its own jack's grant, where the station holds one. -/
theorem State.closes_cons_of_held (h : b.toNat = j.val) (held : s.holdsGrant st j = true) (i : JackIx) :
    s.closes st (b :: rest) i = (decide (i = j) || s.closes st rest i) := by
  by_cases e : i = j
  · subst e
    simp [State.closes, h, held]
  · have other : (b.toNat == i.val) = false := by simpa [h, Fin.ext_iff] using fun e' => e (Fin.ext e'.symm)
    simp [State.closes, e, other]

theorem State.closes_cons_of_not_held (free : ∀ j : JackIx, b.toNat = j.val → s.holdsGrant st j = false) (i : JackIx) :
    s.closes st (b :: rest) i = s.closes st rest i := by
  by_cases h : b.toNat = i.val
  · simp [State.closes, free i h]
  · have other : (b.toNat == i.val) = false := by simpa using h
    simp [State.closes, other]

/-- Closing one held grant and then the others. -/
theorem State.returning_closing (h : b.toNat = j.val) (held : s.holdsGrant st j = true) :
    (s.returning j).closing st rest = s.closing st (b :: rest) := by
  refine s.withTables_congr _ (fun i => ?_) fun i => ?_ <;>
    simp only [Fin.getElem_fin, Vector.getElem_ofFn, State.returning_closes, State.returning_jack,
      State.returning_grant?, State.closes_cons_of_held h held] <;>
    by_cases e : i = j <;> simp [e]

/-- Handling the first entry, and then closing the others' grants. -/
theorem State.cancelEntry_closing (s : State) (st : Station) (b : Byte) (rest : List Byte) :
    (s.cancelEntry st b.toNat).1.closing st rest = s.closing st (b :: rest) := by
  by_cases held : ∃ j : JackIx, b.toNat = j.val ∧ s.holdsGrant st j = true
  · obtain ⟨j, named, own⟩ := held
    rw [State.cancelEntry_of_held named own]
    exact State.returning_closing named own
  · have free : ∀ j : JackIx, b.toNat = j.val → s.holdsGrant st j = false := by simpa using held
    simp only [State.cancelEntry_of_not_held free]
    exact s.withTables_congr _ (by simp [State.closes_cons_of_not_held free]) (by simp [State.closes_cons_of_not_held free])

/-- The deck that the entries leave (R103). -/
theorem State.cancel_eq_closing (s : State) (st : Station) (named : List Byte) :
    (s.cancel st named).1 = s.closing st named := by
  induction named generalizing s with
  | nil => exact (s.closing_nil st).symm
  | cons b rest ih => exact (ih _).trans (s.cancelEntry_closing st b rest)

/-! ### The answer of a cancel (R103) -/

/-- An entry names a jack whose grant the station holds. -/
def State.holdsNamed (s : State) (st : Station) (b : Byte) : Bool :=
  (List.finRange 96).any fun j : JackIx => j.val == b.toNat && (s.grant? j).any fun g : Grant => g.station == st

theorem State.holdsNamed_of_jack (h : b.toNat = j.val) : s.holdsNamed st b = s.holdsGrant st j := by
  rw [Bool.eq_iff_iff, State.holdsNamed, List.any_eq_true]
  refine ⟨fun ⟨i, _, hi⟩ => ?_, fun held => ⟨j, List.mem_finRange j, by simpa [h, State.holdsGrant] using held⟩⟩
  rw [Bool.and_eq_true, beq_iff_eq, h] at hi
  obtain ⟨same, held⟩ := hi
  rwa [Fin.ext same] at held

theorem State.holdsNamed_of_none (h : 96 ≤ b.toNat) : s.holdsNamed st b = false := by
  rw [State.holdsNamed, List.any_eq_false]
  intro i _
  have : i.val ≠ b.toNat := by omega
  simp [this]

/-- Each entry answers on the deck that the entries before it leave. -/
theorem State.cancel_bytes (s : State) (st : Station) (named : List Byte) :
    (s.cancel st named).2 =
      (named.mapIdx fun i b => ((s.closing st (named.take i)).cancelEntry st b.toNat).2).flatten := by
  induction named generalizing s with
  | nil => rfl
  | cons b rest ih =>
    simp only [State.cancel, List.mapIdx_cons, List.flatten_cons, List.take_zero, List.take_succ_cons, s.closing_nil, ih,
      ← s.cancelEntry_closing]

theorem any_names_iff (h : b.toNat = j.val) : (named.any fun b : Byte => b.toNat == j.val) = decide (b ∈ named) := by
  rw [Bool.eq_iff_iff, List.any_eq_true, decide_eq_true_iff]
  constructor
  · rintro ⟨a, ha, same⟩
    rw [beq_iff_eq, ← h] at same
    rwa [← BitVec.eq_of_toNat_eq same]
  · exact fun hb => ⟨b, hb, by simpa using h⟩

theorem State.closes_of_jack (h : b.toNat = j.val) :
    s.closes st named j = (decide (b ∈ named) && s.holdsGrant st j) := by
  rw [State.closes, any_names_iff h]

theorem State.cancelEntry_bytes (s : State) (st : Station) (h : b.toNat = j.val) :
    (s.cancelEntry st b.toNat).2 =
      b :: be1 (if s.holdsGrant st j then 0 else 1) ++
        be1 (if s.holdsGrant st j then 2 else (s.jack j).live.state.code) := by
  cases own : s.holdsGrant st j with
  | true => rw [State.cancelEntry_of_held h own, if_pos rfl, if_pos rfl]
  | false =>
    have free : ∀ i : JackIx, b.toNat = i.val → s.holdsGrant st i = false := by
      intro i hi
      rwa [show i = j from Fin.ext (hi.symm.trans h)]
    rw [State.cancelEntry_of_not_held free, index?_eq_some h, if_neg (by simp), if_neg (by simp)]

/-- What an entry answers, by the deck before the cancel and the deck after it. -/
theorem State.closing_cancelEntry_bytes (s : State) (st : Station) (early late : List Byte) (b : Byte) :
    ((s.closing st early).cancelEntry st b.toNat).2 =
      b :: be1 (if s.holdsNamed st b = true ∧ b ∉ early then 0 else 1) ++
        be1 (match index? 96 b.toNat with
          | some j => ((s.closing st (early ++ b :: late)).jack j).live.state.code
          | none => 0) := by
  by_cases low : b.toNat < 96
  · obtain ⟨j, named⟩ : ∃ j : JackIx, b.toNat = j.val := ⟨⟨b.toNat, low⟩, rfl⟩
    rw [State.cancelEntry_bytes _ st named, index?_eq_some named, State.holdsNamed_of_jack named,
      State.closing_holdsGrant]
    dsimp only
    rw [State.closing_jack, State.closing_jack, State.closes_of_jack named, State.closes_of_jack named]
    cases s.holdsGrant st j <;> by_cases seen : b ∈ early <;> simp [seen, Jack.returned, JackState.code]
  · have high : 96 ≤ b.toNat := by omega
    rw [State.cancelEntry_of_not_held (fun i hi => by omega), State.holdsNamed_of_none high, index?_eq_none high]
    simp

/-! ### STROKE CANCEL is served without the link -/

theorem State.cancelEntry_withLink (s : State) (l : Link) (st : Station) (jack : Nat) :
    (s.withLink l).cancelEntry st jack = ((s.cancelEntry st jack).1.withLink l, (s.cancelEntry st jack).2) := by
  unfold State.cancelEntry
  cases index? 96 jack with
  | none => rfl
  | some j =>
    dsimp only
    rw [show (s.withLink l).grant? j = s.grant? j from rfl]
    split <;> rfl

theorem State.cancel_withLink (s : State) (l : Link) (st : Station) (named : List Byte) :
    (s.withLink l).cancel st named = ((s.cancel st named).1.withLink l, (s.cancel st named).2) := by
  induction named generalizing s with
  | nil => rfl
  | cons b rest ih => simp only [State.cancel, State.cancelEntry_withLink, ih]

theorem serveStrokeCancel_linkBlind (p : Port) (payload : List Byte) : LinkBlind (serveStrokeCancel p payload) := by
  intro s l
  unfold serveStrokeCancel
  cases p.station? with
  | none => rfl
  | some st =>
    dsimp only
    rw [State.cancel_withLink]
    rfl

/-! ### The states of R103 and R104, field by field -/

theorem State.closing_eq (s : State) (st : Station) (named : List Byte) :
    s.closing st named = { s with
      jacks := Vector.ofFn fun j : JackIx =>
        if (named.any fun b : Byte => b.toNat == j.val) && (s.grant? j).any fun g : Grant => g.station == st then
          { s.jack j with live := { (s.jack j).live with state := .ready } } else s.jack j
      grants := Vector.ofFn fun j : JackIx =>
        if (named.any fun b : Byte => b.toNat == j.val) && (s.grant? j).any fun g : Grant => g.station == st then none
        else s.grant? j } := by
  rw [State.closing, State.withTables]
  rfl

theorem State.grantDue_of_grant {g : Grant} (h : s.grant? j = some g) :
    s.grantDue j = decide (g.expires ≤ s.retained.counter) := by
  rw [State.grantDue, h]
  rfl

end Sys2Proof.Machine

open Sys2Proof Sys2Proof.Machine

/-- Settles O37: by the deck and the answers of the entries one after another, and the expiry's own test. -/
theorem grantsCloseByCancelAndExpiry : Obligations.GrantsCloseByCancelAndExpiry := by
  refine ⟨fun p st item named s station hears least most => ?_,
    fun s j g running grant => ⟨fun due => ?_, fun early => ?_⟩⟩
  · dsimp only
    rw [← State.closing_eq]
    refine ⟨named.mapIdx fun i b => ((s.closing st (named.take i)).cancelEntry st b.toNat).2, by simp,
      fun i b at_i => ?_, ?_⟩
    · obtain ⟨low, rfl⟩ := List.getElem?_eq_some_iff.mp at_i
      have bytes := s.closing_cancelEntry_bytes st (named.take i) (named.drop (i + 1)) named[i]
      rw [← List.drop_eq_getElem_cons low, List.take_append_drop] at bytes
      rw [List.getElem?_mapIdx, at_i, Option.map_some, bytes]
      simp only [State.commit_jack]
      rfl
    · rw [← State.cancel_bytes, ← State.cancel_eq_closing]
      refine request_answers (reply := .accept (be1 named.length ++ (s.cancel st named).2))
        (serveStrokeCancel_linkBlind p named) hears (Request.allowed_station station).2.2.1 ?_ ?_ rfl
      · simp [Request.lengthOk, least, most]
      · rw [serveStrokeCancel, station]
  · refine (whenRunning_running _ running).trans ?_
    rw [State.grantDue_of_grant grant, decide_eq_true due]
    rfl
  · refine (whenRunning_running _ running).trans ?_
    rw [State.grantDue_of_grant grant, decide_eq_false (Nat.not_le.mpr early)]
    rfl

end

section
/-! SUPPORT. STROKE REPORT (R93): its entries never read the link, though each drives the outputs (R156), so the report
that the frame's own port carries does on the deck what it does on the deck the frame finds. -/

namespace Sys2Proof.Machine

/-! ### The same deck with another link and other contacts -/

/-- The same deck with another link and the PERMIT contacts driven otherwise. -/
def State.withFace (s : State) (l : Link) (a b : Bool) : State := (s.withLink l).withPermits a b

section WithFace

variable (s t : State) (l : Link) (a b : Bool) (st : Station) (j : JackIx) (k : SectorIx) (travel : Nat)

theorem State.withFace_self : s.withFace s.link s.permitA s.permitB = s := rfl

theorem State.withFace_link : (s.withFace l a b).link = l := rfl

theorem State.withFace_retireSector : (s.withFace l a b).retireSector k = (s.retireSector k).withFace l a b := by
  have lowest : (s.withFace l a b).dLow k = s.dLow k := rfl
  have sector : (s.withFace l a b).sector k = s.sector k := rfl
  unfold State.retireSector
  rw [lowest, sector]
  cases s.dLow k with
  | none => rfl
  | some d => cases (s.sector k).inSlip <;> rfl

theorem State.withFace_placePart (x : HoldSource) (r : HoldReason) (q : Qualifier) :
    (s.withFace l a b).placePart x r q = (s.placePart x r q).withFace l a b := by
  have has : (s.withFace l a b).hasReason r = s.hasReason r := rfl
  unfold State.placePart
  rw [has]
  cases s.hasReason r <;> rfl

theorem State.withFace_placeExposed : (s.withFace l a b).placeExposed = s.placeExposed.withFace l a b := by
  have first : (s.withFace l a b).firstExposed = s.firstExposed := rfl
  unfold State.placeExposed
  rw [first]
  cases s.firstExposed with
  | none => rfl
  | some k => exact s.withFace_placePart l a b ..

theorem State.withFace_crawlAfter (before : Option Nat) :
    (s.withFace l a b).crawlAfter before = (s.crawlAfter before).withFace l a b := by
  have reached : (s.withFace l a b).crawlReached = s.crawlReached := rfl
  have lowest : (s.withFace l a b).hMin = s.hMin := rfl
  unfold State.crawlAfter State.placeCrawlLimit
  rw [reached, lowest, s.withFace_placePart]
  cases raised before s.hMin <;> cases s.crawlReached <;> rfl

theorem State.withFace_heightMoved :
    (s.withFace l a b).heightMoved (t.withFace l a b) j = (s.heightMoved t j).withFace l a b := by
  have now : (s.withFace l a b).jack j = s.jack j := rfl
  have then' : (t.withFace l a b).jack j = t.jack j := rfl
  have lowest : (t.withFace l a b).hMin = t.hMin := rfl
  unfold State.heightMoved
  rw [now, then', lowest]
  by_cases same : (t.jack j).live.height = (s.jack j).live.height
  · rw [if_pos same, if_pos same]
  · rw [if_neg same, if_neg same]
    cases (s.jack j).levelBearing
    · exact (congrArg (State.crawlAfter · t.hMin) (s.withFace_placeExposed l a b)).trans (State.withFace_crawlAfter ..)
    · refine (congrArg (fun u : State => u.placeExposed.crawlAfter t.hMin) (s.withFace_retireSector l a b _)).trans ?_
      exact (congrArg (State.crawlAfter · t.hMin) (State.withFace_placeExposed ..)).trans (State.withFace_crawlAfter ..)

/-- The deck of a DONE entry before anything follows from its height (R97). -/
def State.doneDeck : State :=
  let v := (s.jack j).live.stroked s.active (s.grantedLength j) travel
  ((s.setGrant j none).setLive j v).count fun n => { n with slips := sat32 (n.slips + slipsOf v) }

/-- The deck of a LATE entry before anything follows from its height (R98). -/
def State.lateDeck : State :=
  let v := (s.jack j).live.stroked s.active (s.jack j).live.lastLength travel
  (s.setLive j v).count fun n =>
    { n with slips := sat32 (n.slips + slipsOf v), lateReports := sat32 (n.lateReports + 1) }

/-- The deck of a movement without a grant before its hold and anything that follows from its height (R99). -/
def State.ungrantedDeck : State :=
  (s.setLive j { (s.jack j).live.travelled travel with ungranted := true }).count fun n =>
    { n with ungrantedMoves := sat32 (n.ungrantedMoves + 1) }

theorem State.doneEntry_eq : s.doneEntry j travel = (s.doneDeck j travel).heightMoved s j := rfl

theorem State.lateEntry_eq : s.lateEntry j travel = (s.lateDeck j travel).heightMoved s j := rfl

theorem State.ungrantedEntry_eq : s.ungrantedEntry j travel =
    ((s.ungrantedDeck j travel).placePart .part .ungrantedMove (.jack j)).heightMoved s j := rfl

theorem State.withFace_doneEntry :
    (s.withFace l a b).doneEntry j travel = (s.doneEntry j travel).withFace l a b :=
  (s.doneDeck j travel).withFace_heightMoved s l a b j

theorem State.withFace_lateEntry :
    (s.withFace l a b).lateEntry j travel = (s.lateEntry j travel).withFace l a b :=
  (s.lateDeck j travel).withFace_heightMoved s l a b j

theorem State.withFace_ungrantedEntry :
    (s.withFace l a b).ungrantedEntry j travel = (s.ungrantedEntry j travel).withFace l a b := by
  have placed := (s.ungrantedDeck j travel).withFace_placePart l a b .part .ungrantedMove (.jack j)
  rw [State.ungrantedEntry_eq, State.ungrantedEntry_eq, ← State.withFace_heightMoved, ← placed]
  rfl

end WithFace

/-! ### One entry (R93, R94) -/

section Entry

variable {s : State} {st : Station} {j : JackIx} {travel : Nat}

/-- The deck and the bytes of an entry that names a jack, once its deck is made. -/
def State.entryAnswer (t : State) (j : JackIx) (r : ReportResult) (short overrun : Bool) : State × List Byte :=
  (t.settle, be1 j.val ++ resultByte r short overrun ++ be1 (t.jack j).live.state.code)

/-- What an entry of each class does. -/
def State.classEntry (s : State) (j : JackIx) (travel : Nat) : ReportResult → State × List Byte
  | .undefined => s.entryAnswer j .undefined false false
  | .foreign => s.entryAnswer j .foreign false false
  | .unsurveyed => s.entryAnswer j .unsurveyed false false
  | .done => (s.doneEntry j travel).entryAnswer j .done (strokeShort (s.grantedLength j) travel)
      (strokeOverrun (s.grantedLength j) travel)
  | .late => (s.lateEntry j travel).entryAnswer j .late (strokeShort (s.jack j).live.lastLength travel)
      (strokeOverrun (s.jack j).live.lastLength travel)
  | .ungranted =>
    if travel = 0 then s.entryAnswer j .ungranted false false
    else (s.ungrantedEntry j travel).entryAnswer j .ungranted false (decide (400 < travel))

theorem State.reportEntry_eq_classEntry (s : State) (st : Station) (j : JackIx) (travel : Nat) :
    s.reportEntry st j.val travel = s.classEntry j travel ((s.jack j).classify st) := by
  rw [State.reportEntry, index?_eq_some rfl]
  dsimp only
  cases (s.jack j).classify st <;> rfl

theorem State.reportEntry_of_no_jack (s : State) (st : Station) {jack : Nat} (high : 96 ≤ jack) (travel : Nat) :
    s.reportEntry st jack travel = (s, be1 jack ++ resultByte .undefined false false ++ be1 0) := by
  rw [State.reportEntry, index?_eq_none high]

/-- An answer made of another face of the deck differs in its face alone. -/
theorem State.withFace_entryAnswer (t : State) (l : Link) (a b : Bool) (j : JackIx) (r : ReportResult)
    (short overrun : Bool) : ∃ x y, (t.withFace l a b).entryAnswer j r short overrun =
      ((t.entryAnswer j r short overrun).1.withFace l x y, (t.entryAnswer j r short overrun).2) :=
  ⟨(t.withFace l a b).permitOn .A, (t.withFace l a b).permitOn .B, rfl⟩

theorem State.withFace_classEntry (s : State) (l : Link) (a b : Bool) (j : JackIx) (travel : Nat) (r : ReportResult) :
    ∃ x y, (s.withFace l a b).classEntry j travel r =
      ((s.classEntry j travel r).1.withFace l x y, (s.classEntry j travel r).2) := by
  cases r with
  | undefined | foreign | unsurveyed => exact s.withFace_entryAnswer l a b j ..
  | done =>
    unfold State.classEntry
    rw [State.withFace_doneEntry]
    exact State.withFace_entryAnswer _ l a b j ..
  | late =>
    unfold State.classEntry
    rw [State.withFace_lateEntry]
    exact State.withFace_entryAnswer _ l a b j ..
  | ungranted =>
    unfold State.classEntry
    by_cases still : travel = 0
    · rw [if_pos still, if_pos still]
      exact s.withFace_entryAnswer l a b j ..
    · rw [if_neg still, if_neg still, State.withFace_ungrantedEntry]
      exact State.withFace_entryAnswer _ l a b j ..

theorem State.withFace_reportEntry (s : State) (l : Link) (a b : Bool) (st : Station) (jack travel : Nat) :
    ∃ x y, (s.withFace l a b).reportEntry st jack travel =
      ((s.reportEntry st jack travel).1.withFace l x y, (s.reportEntry st jack travel).2) := by
  by_cases low : jack < 96
  · have named := s.reportEntry_eq_classEntry st ⟨jack, low⟩ travel
    have faced := (s.withFace l a b).reportEntry_eq_classEntry st ⟨jack, low⟩ travel
    dsimp only at named faced
    rw [named, faced]
    exact s.withFace_classEntry l a b _ travel _
  · have high : 96 ≤ jack := by omega
    rw [State.reportEntry_of_no_jack _ st high, State.reportEntry_of_no_jack _ st high]
    exact ⟨a, b, rfl⟩

/-! ### The entries one after another -/

theorem State.withFace_report (s : State) (l : Link) (a b : Bool) (st : Station) (entries : List (Nat × Nat)) :
    ∃ x y, (s.withFace l a b).report st entries =
      ((s.report st entries).1.withFace l x y, (s.report st entries).2) := by
  induction entries generalizing s a b with
  | nil => exact ⟨a, b, rfl⟩
  | cons e rest ih =>
    obtain ⟨x, y, first⟩ := s.withFace_reportEntry l a b st e.1 e.2
    obtain ⟨x', y', others⟩ := ih (s.reportEntry st e.1 e.2).1 x y
    refine ⟨x', y', ?_⟩
    rw [State.report, first]
    dsimp only
    rw [others]
    rfl

theorem State.report_link (s : State) (st : Station) (entries : List (Nat × Nat)) :
    (s.report st entries).1.link = s.link := by
  obtain ⟨x, y, same⟩ := s.withFace_report s.link s.permitA s.permitB st entries
  rw [s.withFace_self] at same
  rw [same, State.withFace_link]

/-- The deck and the bytes that each entry leaves, in payload order. -/
def State.reportDecks (s : State) (st : Station) : List (Nat × Nat) → List (State × List Byte)
  | [] => []
  | e :: rest => s.reportEntry st e.1 e.2 :: (s.reportEntry st e.1 e.2).1.reportDecks st rest

variable {entries : List (Nat × Nat)}

theorem State.reportDecks_length (s : State) (st : Station) (entries : List (Nat × Nat)) :
    (s.reportDecks st entries).length = entries.length := by
  induction entries generalizing s with
  | nil => rfl
  | cons e rest ih => rw [State.reportDecks, List.length_cons, ih, List.length_cons]

/-- Each entry is handled on the deck that the entries before it leave. -/
theorem State.reportDecks_getElem? {i : Nat} {e : Nat × Nat} (h : entries[i]? = some e) :
    (s.reportDecks st entries)[i]? = some ((s.report st (entries.take i)).1.reportEntry st e.1 e.2) := by
  induction entries generalizing s i with
  | nil => simp at h
  | cons d rest ih =>
    cases i with
    | zero =>
      obtain rfl : d = e := by simpa using h
      rfl
    | succ i => exact ih (by simpa using h)

/-- The deck that the entries before one leave is that of the entry just before it, if there is one. -/
theorem State.report_take (s : State) (st : Station) (entries : List (Nat × Nat)) {i : Nat} (low : i ≤ entries.length) :
    (s.report st (entries.take i)).1 =
      if i = 0 then s else (((s.reportDecks st entries)[i - 1]?).map Prod.fst).getD s := by
  induction entries generalizing s i with
  | nil =>
    obtain rfl : i = 0 := by simpa using low
    rfl
  | cons e rest ih =>
    cases i with
    | zero => rfl
    | succ i =>
      have step := ih (s := (s.reportEntry st e.1 e.2).1) (i := i) (by simpa using low)
      refine step.trans ?_
      cases i with
      | zero => rfl
      | succ i =>
        have there : i < ((s.reportEntry st e.1 e.2).1.reportDecks st rest).length := by
          rw [State.reportDecks_length]
          simpa using low
        simp [State.reportDecks, List.getElem?_eq_getElem there]

theorem State.report_bytes (s : State) (st : Station) (entries : List (Nat × Nat)) :
    (s.report st entries).2 = (s.reportDecks st entries).flatMap Prod.snd := by
  induction entries generalizing s with
  | nil => rfl
  | cons e rest ih => rw [State.report, State.reportDecks, List.flatMap_cons, ← ih]

/-- The deck that a report leaves is that of its last entry. -/
theorem State.report_deck (s : State) (st : Station) (entries : List (Nat × Nat)) :
    (s.report st entries).1 = ((s.reportDecks st entries).getLast?.map Prod.fst).getD s := by
  have all := s.report_take st entries le_rfl
  rw [List.take_length] at all
  rw [all, List.getLast?_eq_getElem?, State.reportDecks_length]
  split
  · next none => rw [List.length_eq_zero_iff.mp none]; rfl
  · rfl

end Entry

/-! ### The payload (R153) -/

/-- An entry of a report: its jack, and its travel in two bytes. -/
def entryOf (e : Byte × Byte × Byte) : Nat × Nat := (e.1.toNat, e.2.1.toNat * 256 + e.2.2.toNat)

theorem reportEntries_flatMap (entries : List (Byte × Byte × Byte)) :
    reportEntries (entries.flatMap fun e => [e.1, e.2.1, e.2.2]) = entries.map entryOf := by
  induction entries with
  | nil => rfl
  | cons e rest ih => exact congrArg (entryOf e :: ·) ih

theorem reportPayload_length (entries : List (Byte × Byte × Byte)) :
    (entries.flatMap fun e => [e.1, e.2.1, e.2.2]).length = 3 * entries.length := by
  simp [List.length_flatMap, mul_comm]

theorem strokeReport_answers {p : Port} {st : Station} {item : Item} {payload : List Byte} {s : State} {a : Answer}
    (station : p.station? = some st) (hears : s.Hears p) (lengthOk : Request.strokeReport.lengthOk payload.length = true)
    (answer : a = ⟨.accept, 0x21, be1 (reportEntries payload).length ++ (s.report st (reportEntries payload)).2⟩) :
    Answered (.strokeReport p item payload) p a s (s.report st (reportEntries payload)).1.commit := by
  obtain ⟨x, y, faced⟩ := s.withFace_report (s.linkAfterFrame p) s.permitA s.permitB st (reportEntries payload)
  refine request_answers_after (x := x) (y := y) hears (Request.allowed_station station).2.1 lengthOk
    (s.report_link st (reportEntries payload)) (reply := .accept _) ?_ (congrArg some answer.symm)
  rw [serveStrokeReport, station]
  dsimp only
  rw [show s.withLink (s.linkAfterFrame p) = s.withFace (s.linkAfterFrame p) s.permitA s.permitB from rfl, faced]
  rfl

end Sys2Proof.Machine

open Sys2Proof Sys2Proof.Machine

/-- Settles O35: the decks are those of the entries one after another. -/
theorem reportHandlesEntriesInOrder : Obligations.ReportHandlesEntriesInOrder := by
  intro p st item entries s station hears least most
  refine ⟨s.reportDecks st (entries.map entryOf), by simp [State.reportDecks_length], fun i e at_i => ?_, ?_⟩
  · have low : i ≤ (entries.map entryOf).length := by
      rw [List.length_map]
      exact (List.getElem?_eq_some_iff.mp at_i).1.le
    dsimp only
    rw [← State.report_take s st _ low]
    exact ⟨State.reportDecks_getElem? (e := entryOf e) (by rw [List.getElem?_map, at_i, Option.map_some]),
      reportEntry_length ..⟩
  · have length := reportPayload_length entries
    have entryList := reportEntries_flatMap entries
    rw [← State.report_deck, ← State.report_bytes, ← entryList]
    refine strokeReport_answers station hears ?_ ?_
    · rw [length]
      simp [Request.lengthOk]
      omega
    · rw [entryList, List.length_map]

end

section
/-! SUPPORT. A placement of a part hold (R77, R99, R112, R121), and one entry of a report by its class (R94 to R100). -/

namespace Sys2Proof.Machine

/-! ### Placements -/

section Placements

variable {s : State}

theorem State.hasReason_iff {r : HoldReason} : s.hasReason r = true ↔ ∃ h ∈ s.holds, h.reason = r := by
  simp [State.hasReason]

/-- A placement is one entry at the end of the set, unless the set holds one of its reason (R121). -/
theorem State.placePart_eq (s : State) (r : HoldReason) (q : Qualifier) :
    s.placePart .part r q =
      if ∃ h ∈ s.holds, h.reason = r then s
      else { s with holds := s.holds ++ [(⟨.part, r, q, s.retained.counter⟩ : Hold)] } := by
  rcases s.placePart_cases .part r q with ⟨has, placed⟩ | ⟨lacks, placed⟩
  · rw [placed, if_pos (State.hasReason_iff.mp has)]
  · rw [placed, if_neg (by simp [← State.hasReason_iff, lacks])]
    rfl

theorem State.placeExposed_of_none (none : ∀ k : SectorIx, s.exposed k = false) : s.placeExposed = s := by
  have first : s.firstExposed = .none := by simp [State.firstExposed, none]
  rw [State.placeExposed, first]

theorem State.placeExposed_of_lowest {k : SectorIx} (exposed : s.exposed k = true)
    (lowest : ∀ i : SectorIx, s.exposed i = true → k ≤ i) : s.placeExposed = s.placePart .part .exposed (.sector k) := by
  have first : s.firstExposed = some k := by
    refine List.find?_eq_some_iff_getElem.mpr ⟨exposed, k.val, by simp, by simp, fun i below => ?_⟩
    rw [List.getElem_finRange, Bool.not_eq_true']
    by_contra shown
    have := Fin.le_def.mp (lowest _ (by simpa using shown))
    simp at this
    omega
  rw [State.placeExposed, first]

theorem State.crawlReached_iff : s.crawlReached = true ↔
    s.mode = .crawl ∧ ∃ lowest entry : Nat, s.hMin = some lowest ∧ s.crawlEntry = some entry ∧
      (entry : Int) + s.active.crawlLim - s.active.crawlStroke < lowest := by
  unfold State.crawlReached
  cases s.mode <;> cases s.hMin <;> cases s.crawlEntry <;> simp

theorem State.placeCrawlLimit_of_reached (h : s.crawlReached = true) :
    s.placeCrawlLimit = s.placePart .part .crawlLimit .none := if_pos h

theorem State.placeCrawlLimit_of_not_reached (h : ¬ s.crawlReached = true) : s.placeCrawlLimit = s := if_neg h

theorem raised_iff {before after : Option Nat} :
    raised before after = true ↔ ∃ low lowest : Nat, before = some low ∧ after = some lowest ∧ low < lowest := by
  cases before <;> cases after <;> simp [raised]

theorem State.crawlAfter_of_raised {before : Option Nat} (h : raised before s.hMin = true) :
    s.crawlAfter before = s.placeCrawlLimit := if_pos h

theorem State.crawlAfter_of_not_raised {before : Option Nat} (h : ¬ raised before s.hMin = true) :
    s.crawlAfter before = s := if_neg h

end Placements

/-! ### The class of an entry (R94) -/

section Class

variable {r : Jack} {st : Station}

theorem Jack.classify_of_undefined (state : r.live.state = .undefined) : r.classify st = .undefined := if_pos state

theorem Jack.classify_of_foreign (foreign : r.station ≠ st) (defined : r.live.state ≠ .undefined) :
    r.classify st = .foreign := by rw [Jack.classify, if_neg defined, if_pos foreign]

theorem Jack.classify_of_unsurveyed (own : r.station = st) (state : r.live.state = .unsurveyed) :
    r.classify st = .unsurveyed := by simp [Jack.classify, own, state]

theorem Jack.classify_of_granted (own : r.station = st) (state : r.live.state = .granted) : r.classify st = .done := by
  simp [Jack.classify, own, state]

theorem Jack.classify_of_stalled (own : r.station = st) (state : r.live.state = .stalled) : r.classify st = .late := by
  simp [Jack.classify, own, state]

theorem Jack.classify_of_idle (own : r.station = st)
    (state : r.live.state = .ready ∨ r.live.state = .slip ∨ r.live.state = .rodEnd ∨ r.live.state = .excluded) :
    r.classify st = .ungranted := by
  rcases state with state | state | state | state <;> simp [Jack.classify, own, state]

end Class

/-! ### A stroke applied and judged (R95 to R97) -/

section Stroke

variable (v : JackLive) (plan : Plan) (g travel : Nat)

theorem JackLive.stroked_eq : v.stroked plan g travel =
    { v.travelled travel with
      overrun := v.overrun || decide (400 < travel) || decide (g + 30 < min travel 400)
      shortCount := if min travel 400 < g / 2 then min (v.shortCount + 1) 3 else 0
      state := if (if min travel 400 < g / 2 then min (v.shortCount + 1) 3 else 0) = 3 then .slip
        else if v.rod - min travel 400 < plan.lnom + 500 then .rodEnd else .ready } := by
  have overrun : (v.overrun || decide (400 < travel) || strokeOverrun g travel) =
      (v.overrun || decide (400 < travel) || decide (g + 30 < min travel 400)) := by
    rw [strokeOverrun, ← Bool.or_assoc, Bool.or_assoc v.overrun, Bool.or_self]
  unfold JackLive.stroked JackLive.judged JackLive.afterStroke
  simp only [readyOrRodEnd_eq, strokeShort, decide_eq_true_eq]
  rw [← overrun]
  rfl

/-- A stroke leaves its jack in SLIP exactly at the third short one in a row (R97). -/
theorem slipsOf_stroked :
    slipsOf (v.stroked plan g travel) = if min travel 400 < g / 2 ∧ 2 ≤ v.shortCount then 1 else 0 := by
  rw [JackLive.stroked_eq, slipsOf]
  dsimp only
  congr 1
  by_cases short : min travel 400 < g / 2
  · by_cases twice : 2 ≤ v.shortCount
    · simp [short, twice]
    · have early : min (v.shortCount + 1) 3 ≠ 3 := by omega
      simp only [short, twice, if_true, early, if_false, and_false]
      split <;> simp
  · simp only [short, if_false, false_and, Nat.zero_ne_add_one]
    split <;> simp

theorem JackLive.stroked_state :
    (v.stroked plan g travel).state ≠ .undefined ∧ (v.stroked plan g travel).state ≠ .unsurveyed ∧
      (v.stroked plan g travel).state ≠ .excluded := by
  rw [JackLive.stroked_eq]
  dsimp only
  generalize (if min travel 400 < g / 2 then min (v.shortCount + 1) 3 else 0) = short
  split
  · decide
  · split <;> decide

/-- The marks that a stroke of a grant takes in its answer (R96, R153). -/
def strokeMarks : Nat :=
  (if min travel 400 < g / 2 then 16 else 0) + if 400 < travel ∨ g + 30 < min travel 400 then 32 else 0

theorem resultByte_stroke (r : ReportResult) :
    resultByte r (strokeShort g travel) (strokeOverrun g travel) = be1 (r.code + strokeMarks g travel) := by
  have overrun : strokeOverrun g travel = decide (400 < travel ∨ g + 30 < min travel 400) := by
    rw [strokeOverrun, Bool.decide_or]
  rw [resultByte, overrun, strokeShort, flag_decide, flag_decide, Nat.add_assoc]
  rfl

theorem resultByte_clamped (r : ReportResult) :
    resultByte r false (decide (400 < travel)) = be1 (r.code + if 400 < travel then 32 else 0) := by
  rw [resultByte, flag_decide]
  rfl

end Stroke

/-! ### What follows a moved height (R100) -/

section HandOn

variable {s : State} {j : JackIx} {travel : Nat} {t : State} {v : JackLive}

/-- A deck whose jack an entry has moved, with the retirement and the holds that the height asks for. -/
def State.handOn (s : State) (j : JackIx) (travel : Nat) (t : State) : State :=
  if min ((s.jack j).live.height + min travel 400) 2000000 = (s.jack j).live.height then t
  else ((if (s.jack j).live.state = .excluded then t else t.retireSector (s.jack j).sector).placeExposed).crawlAfter s.hMin

/-- An entry that applies its travel, and leaves a jack level-bearing exactly when it was not EXCLUDED, hands on by it. -/
theorem State.heightMoved_eq_handOn (jack : t.jack j = { s.jack j with live := v })
    (height : v.height = min ((s.jack j).live.height + min travel 400) 2000000)
    (bearing : v.state.levelBearing = decide ((s.jack j).live.state ≠ .excluded)) :
    t.heightMoved s j = s.handOn j travel t := by
  have bears : (t.jack j).levelBearing = decide ((s.jack j).live.state ≠ .excluded) := by rw [jack]; exact bearing
  have sector : (t.jack j).sector = (s.jack j).sector := by rw [jack]
  have moved : (t.jack j).live.height = min ((s.jack j).live.height + min travel 400) 2000000 := by rw [jack]; exact height
  rw [State.heightMoved, State.handOn, bears, sector, moved]
  by_cases same : min ((s.jack j).live.height + min travel 400) 2000000 = (s.jack j).live.height
  · rw [if_pos same, if_pos same.symm]
  · rw [if_neg same, if_neg (Ne.symm same)]
    by_cases excluded : (s.jack j).live.state = .excluded <;> simp [excluded]

theorem State.placePart_jack (s : State) (a : HoldSource) (r : HoldReason) (q : Qualifier) (j : JackIx) :
    (s.placePart a r q).jack j = s.jack j := by
  rcases s.placePart_cases a r q with ⟨_, e⟩ | ⟨_, e⟩ <;> rw [e]
  rfl

theorem State.retireSector_jack (s : State) (k : SectorIx) (j : JackIx) : (s.retireSector k).jack j = s.jack j :=
  s.retireSectors_jack j [k]

theorem State.handOn_jack (s : State) (j : JackIx) (travel : Nat) (t : State) (i : JackIx) :
    (s.handOn j travel t).jack i = t.jack i := by
  unfold State.handOn
  split
  · rfl
  · rw [State.crawlAfter_jack, State.placeExposed_jack]
    split
    · rfl
    · exact t.retireSector_jack _ i

theorem State.doneDeck_jack : (s.doneDeck j travel).jack j =
    { s.jack j with live := (s.jack j).live.stroked s.active (s.grantedLength j) travel } :=
  State.jack_setJack_self ..

theorem State.lateDeck_jack : (s.lateDeck j travel).jack j =
    { s.jack j with live := (s.jack j).live.stroked s.active (s.jack j).live.lastLength travel } :=
  State.jack_setJack_self ..

theorem State.ungrantedDeck_jack : (s.ungrantedDeck j travel).jack j =
    { s.jack j with live := { (s.jack j).live.travelled travel with ungranted := true } } :=
  State.jack_setJack_self ..

theorem JackLive.stroked_levelBearing {x : JackState} (v : JackLive) (plan : Plan) (g travel : Nat) (ne : x ≠ .excluded) :
    (v.stroked plan g travel).state.levelBearing = decide (x ≠ .excluded) := by
  obtain ⟨defined, surveyed, included⟩ := v.stroked_state plan g travel
  rw [JackState.levelBearing_eq defined surveyed, decide_eq_true included, decide_eq_true ne]

theorem State.doneEntry_eq_handOn (state : (s.jack j).live.state = .granted) :
    s.doneEntry j travel = s.handOn j travel (s.doneDeck j travel) :=
  State.heightMoved_eq_handOn State.doneDeck_jack rfl (JackLive.stroked_levelBearing _ _ _ _ (by rw [state]; decide))

theorem State.lateEntry_eq_handOn (state : (s.jack j).live.state = .stalled) :
    s.lateEntry j travel = s.handOn j travel (s.lateDeck j travel) :=
  State.heightMoved_eq_handOn State.lateDeck_jack rfl (JackLive.stroked_levelBearing _ _ _ _ (by rw [state]; decide))

theorem State.ungrantedEntry_eq_handOn (defined : (s.jack j).live.state ≠ .undefined)
    (surveyed : (s.jack j).live.state ≠ .unsurveyed) :
    s.ungrantedEntry j travel =
      s.handOn j travel ((s.ungrantedDeck j travel).placePart .part .ungrantedMove (.jack j)) :=
  State.heightMoved_eq_handOn ((State.placePart_jack ..).trans State.ungrantedDeck_jack) rfl
    (JackState.levelBearing_eq defined surveyed)

end HandOn

/-! ### One entry of each class (R94) -/

section Outcome

variable {s : State} {st : Station} {j : JackIx} {travel : Nat}

theorem State.reportEntry_done {g : Grant} (own : (s.jack j).station = st) (state : (s.jack j).live.state = .granted)
    (grant : s.grant? j = some g) :
    s.reportEntry st j.val travel =
      ((s.handOn j travel (((s.setGrant j none).setLive j ((s.jack j).live.stroked s.active g.length travel)).count
          fun n => { n with slips := sat32 (n.slips +
            if min travel 400 < g.length / 2 ∧ 2 ≤ (s.jack j).live.shortCount then 1 else 0) })).settle,
        be1 j.val ++ be1 (0 + strokeMarks g.length travel) ++
          be1 ((s.jack j).live.stroked s.active g.length travel).state.code) := by
  have length : s.grantedLength j = g.length := by rw [State.grantedLength, grant]
  rw [State.reportEntry_eq_classEntry, Jack.classify_of_granted own state, State.classEntry,
    State.doneEntry_eq_handOn state, State.entryAnswer, State.handOn_jack, State.doneDeck_jack, resultByte_stroke,
    State.doneDeck, length, slipsOf_stroked]
  rfl

theorem State.reportEntry_late (own : (s.jack j).station = st) (state : (s.jack j).live.state = .stalled) :
    s.reportEntry st j.val travel =
      ((s.handOn j travel ((s.setLive j ((s.jack j).live.stroked s.active (s.jack j).live.lastLength travel)).count
          fun n => { n with
            slips := sat32 (n.slips +
              if min travel 400 < (s.jack j).live.lastLength / 2 ∧ 2 ≤ (s.jack j).live.shortCount then 1 else 0)
            lateReports := sat32 (n.lateReports + 1) })).settle,
        be1 j.val ++ be1 (1 + strokeMarks (s.jack j).live.lastLength travel) ++
          be1 ((s.jack j).live.stroked s.active (s.jack j).live.lastLength travel).state.code) := by
  rw [State.reportEntry_eq_classEntry, Jack.classify_of_stalled own state, State.classEntry,
    State.lateEntry_eq_handOn state, State.entryAnswer, State.handOn_jack, State.lateDeck_jack, resultByte_stroke,
    State.lateDeck, slipsOf_stroked]
  rfl

section Idle

variable (own : (s.jack j).station = st)
  (state : (s.jack j).live.state = .ready ∨ (s.jack j).live.state = .slip ∨ (s.jack j).live.state = .rodEnd ∨
    (s.jack j).live.state = .excluded)

include own state

theorem State.reportEntry_still : s.reportEntry st j.val 0 =
    (s.settle, be1 j.val ++ be1 2 ++ be1 (s.jack j).live.state.code) := by
  rw [State.reportEntry_eq_classEntry, Jack.classify_of_idle own state, State.classEntry, if_pos rfl]
  rfl

theorem State.reportEntry_ungranted (moves : travel ≠ 0) :
    s.reportEntry st j.val travel =
      ((s.handOn j travel (((s.setLive j { (s.jack j).live.travelled travel with ungranted := true }).count
          fun n => { n with ungrantedMoves := sat32 (n.ungrantedMoves + 1) }).placePart .part .ungrantedMove
            (.jack j))).settle,
        be1 j.val ++ be1 (2 + if 400 < travel then 32 else 0) ++ be1 (s.jack j).live.state.code) := by
  have defined : (s.jack j).live.state ≠ .undefined := by
    rcases state with e | e | e | e <;> rw [e] <;> decide
  have surveyed : (s.jack j).live.state ≠ .unsurveyed := by
    rcases state with e | e | e | e <;> rw [e] <;> decide
  rw [State.reportEntry_eq_classEntry, Jack.classify_of_idle own state, State.classEntry, if_neg moves,
    State.ungrantedEntry_eq_handOn defined surveyed, State.entryAnswer, State.handOn_jack, State.placePart_jack,
    State.ungrantedDeck_jack, resultByte_clamped]
  rfl

end Idle

theorem State.reportEntry_undefined (state : (s.jack j).live.state = .undefined) :
    s.reportEntry st j.val travel = (s.settle, be1 j.val ++ be1 4 ++ be1 0) := by
  rw [State.reportEntry_eq_classEntry, Jack.classify_of_undefined state, State.classEntry, State.entryAnswer, state]
  rfl

theorem State.reportEntry_foreign (foreign : (s.jack j).station ≠ st) (defined : (s.jack j).live.state ≠ .undefined) :
    s.reportEntry st j.val travel = (s.settle, be1 j.val ++ be1 3 ++ be1 (s.jack j).live.state.code) := by
  rw [State.reportEntry_eq_classEntry, Jack.classify_of_foreign foreign defined]
  rfl

theorem State.reportEntry_unsurveyed (own : (s.jack j).station = st) (state : (s.jack j).live.state = .unsurveyed) :
    s.reportEntry st j.val travel = (s.settle, be1 j.val ++ be1 5 ++ be1 1) := by
  rw [State.reportEntry_eq_classEntry, Jack.classify_of_unsurveyed own state, State.classEntry, State.entryAnswer, state]
  rfl

end Outcome

end Sys2Proof.Machine

open Sys2Proof Sys2Proof.Machine

/-- Settles O36: the placements one by one, then the entry of each class. -/
theorem reportEntryOutcomes : Obligations.ReportEntryOutcomes := by
  refine ⟨fun s => ⟨s.placePart_eq, State.placeExposed_of_none, fun k exposed lowest => ?_, fun reached => ?_,
    fun early => ?_, fun before => ⟨fun risen => ?_, fun level => ?_⟩⟩, fun s st j travel => ?_⟩
  · exact (State.placeExposed_of_lowest exposed lowest).trans (s.placePart_eq ..)
  · exact (State.placeCrawlLimit_of_reached (State.crawlReached_iff.mpr reached)).trans (s.placePart_eq ..)
  · exact State.placeCrawlLimit_of_not_reached (mt State.crawlReached_iff.mp early)
  · exact State.crawlAfter_of_raised (raised_iff.mpr risen)
  · exact State.crawlAfter_of_not_raised (mt raised_iff.mp level)
  · refine ⟨fun g own state grant => ?_, fun own state => ?_, fun own state => ⟨fun still => ?_, fun moves => ?_⟩,
      State.reportEntry_undefined, State.reportEntry_foreign, State.reportEntry_unsurveyed,
      fun i high => s.reportEntry_of_no_jack st high travel⟩
    · have entry := State.reportEntry_done (travel := travel) own state grant
      rw [JackLive.stroked_eq] at entry
      exact entry
    · have entry := State.reportEntry_late (travel := travel) own state
      rw [JackLive.stroked_eq] at entry
      exact entry
    · subst still
      exact State.reportEntry_still own state
    · exact State.reportEntry_ungranted own state moves

end

section
/-! SUPPORT. The tables of the state after reset, entry by entry, and what its deck as a whole is. -/

namespace Sys2Proof.Machine

/-! ### The entries of its tables -/

@[simp] theorem State.reset_jack (j : JackIx) : State.reset.jack j = Jack.undefined := Vector.getElem_replicate ..
@[simp] theorem State.reset_sector (k : SectorIx) : State.reset.sector k = Sector.undefined := Vector.getElem_replicate ..
@[simp] theorem State.reset_probe (n : ProbeIx) : State.reset.probe n = Probe.fresh := Vector.getElem_replicate ..
@[simp] theorem State.reset_grant? (j : JackIx) : State.reset.grant? j = none := Vector.getElem_replicate ..
@[simp] theorem State.reset_port (p : Port) : State.reset.port p = PortRec.fresh .b57600 := Vector.getElem_replicate ..
@[simp] theorem RetainedCopy.cleared_jack (j : JackIx) : RetainedCopy.cleared.jacks[j] = JackLive.default :=
  Vector.getElem_replicate ..
@[simp] theorem RetainedCopy.cleared_sector (k : SectorIx) :
    RetainedCopy.cleared.sectors[k] = ⟨false, SectorLive.default⟩ := Vector.getElem_replicate ..

theorem State.reset_jacks : State.reset.jacks.toList = List.replicate 96 Jack.undefined := Vector.toList_replicate ..
theorem State.reset_sectors : State.reset.sectors.toList = List.replicate 24 Sector.undefined := Vector.toList_replicate ..
theorem State.reset_probes : State.reset.probes.toList = List.replicate 12 Probe.fresh := Vector.toList_replicate ..

/-! ### The deck as a whole -/

/-- No jack bears the deck, so the deck has no spread. -/
theorem State.reset_levelAlert : State.reset.levelAlert = false := by
  have heights : State.reset.levelHeights = [] := by
    rw [State.levelHeights, State.reset_jacks, List.filterMap_eq_nil_iff]
    intro j hj
    rw [List.eq_of_mem_replicate hj]
    rfl
  rw [State.levelAlert, State.spread, State.hMin, heights]
  rfl

theorem State.reset_lag (k : SectorIx) : State.reset.lag k = false := by
  have low : State.reset.dLow k = none := by rw [State.dLow, State.reset_sector]; rfl
  rw [State.lag, low]

theorem State.reset_conditions : State.reset.conditions = Conditions.empty := by
  have lag : State.reset.anyLag = false := by simp [State.anyLag, State.reset_lag]
  have stall : State.reset.anyStall = false := by
    rw [State.anyStall, State.reset_jacks, List.any_replicate]
    rfl
  have probe : State.reset.probeCondition = false := by
    rw [State.probeCondition, State.reset_probes, List.any_replicate]
    rfl
  rw [State.conditions, State.reset_levelAlert, lag, stall, probe]
  rfl

theorem State.reset_incomplete : State.reset.incomplete = false := by
  rw [State.incomplete, State.reset_jacks, State.reset_sectors, List.any_replicate, List.any_replicate]
  rfl

/-! ### The invariants -/

theorem State.reset_sounderFollows : State.reset.SounderFollows := by
  rw [State.SounderFollows, State.reset_conditions]
  exact ⟨rfl, rfl, rfl⟩

theorem State.reset_modeMatches : State.reset.ModeMatches := by
  rw [State.ModeMatches, State.reset_incomplete]
  exact ⟨nofun, nofun⟩

theorem State.reset_grantsMatch : State.reset.GrantsMatch :=
  .of_free State.reset_grant? fun j => by rw [State.reset_jack]; exact nofun

theorem holdsLegal_nil : HoldsLegal [] := by decide

theorem State.reset_holdsOk : State.reset.HoldsOk :=
  ⟨holdsLegal_nil, holdsLegal_nil, ⟨nofun, nofun⟩, fun _ h => absurd h List.not_mem_nil⟩

theorem State.reset_retainedMirrors : State.reset.RetainedMirrors :=
  ⟨(Vector.map_replicate (a := Jack.undefined) (f := Jack.live)).symm,
    (Vector.map_replicate (a := Sector.undefined) (f := fun k => (⟨k.defined, k.live⟩ : RetainedSector))).symm,
    rfl, rfl, rfl, rfl, rfl⟩

theorem State.reset_freeList : State.reset.freeList = freshPool := by rw [State.reset]

theorem RetainedCopy.cleared_freeList : RetainedCopy.cleared.freeList = freshPool := by rw [RetainedCopy.cleared]

theorem State.reset_retained : State.reset.retained.toRetainedCopy = RetainedCopy.cleared := rfl

theorem State.reset_kept (k : SectorIx) : State.reset.kept k = ⟨false, SectorLive.default⟩ := by
  rw [State.kept, State.reset_sector]
  rfl

theorem State.reset_poolsSound : State.reset.PoolsSound := by
  constructor
  · rw [State.reset_freeList]
    exact poolSound_fresh (fun k => by rw [State.reset_kept]; rfl) fun k => by rw [State.reset_kept]; exact Nat.zero_le _
  · rw [State.reset_retained, RetainedCopy.cleared_freeList]
    exact poolSound_fresh (fun k => by rw [RetainedCopy.cleared_sector]; rfl)
      fun k => by rw [RetainedCopy.cleared_sector]; exact Nat.zero_le _

theorem State.reset_definitionsOk : State.reset.DefinitionsOk := by
  refine State.definitionsOk_iff.mpr ⟨fun j => ?_, fun k _ => State.reset_sector k,
    Configuration.factory_consistent, nofun⟩
  rw [State.reset_jack]
  exact Jack.placed_undefined _

theorem State.reset_flagsFollow : State.reset.FlagsFollow := by
  intro k l hl
  rw [State.reset_sector] at hl
  cases hl

theorem RetainedCopy.cleared_inRange : RetainedCopy.cleared.InRange := by
  refine ⟨fun j => ?_, fun k => ?_, nofun, nofun, Nat.zero_le _, DeckCounters.zero_inRange, Nat.zero_le _, Nat.zero_le _⟩
  · rw [RetainedCopy.cleared_jack]
    exact JackLive.default_inRange
  · rw [RetainedCopy.cleared_sector]
    exact SectorLive.default_inRange

theorem State.reset_rangesOk : State.reset.RangesOk := by
  refine ⟨fun j => ?_, fun k => ?_, fun n => ?_, fun j => ?_, nofun, nofun, Nat.zero_le _, DeckCounters.zero_inRange,
    fun p => ?_, RetainedCopy.cleared_inRange, fun p a answering => ?_⟩
  · rw [State.reset_jack]
    exact JackLive.default_inRange
  · rw [State.reset_sector]
    exact SectorLive.default_inRange
  · rw [State.reset_probe]
    exact Probe.fresh_inRange
  · rw [State.reset_grant?]
    exact nofun
  · rw [State.reset_port]
    exact PortCounters.zero_inRange
  · rw [State.reset_port] at answering
    cases answering

end Sys2Proof.Machine

open Sys2Proof Sys2Proof.Machine

/-- Settles O60: nothing is defined, granted or held, and every record is at its defaults. -/
theorem resetKeepsEveryInvariant : Obligations.ResetKeepsEveryInvariant := by
  obtain ⟨pool, chains⟩ := State.poolsSound_iff.mp State.reset_poolsSound
  exact ⟨⟨rfl, rfl⟩, State.reset_sounderFollows, State.reset_modeMatches, State.reset_grantsMatch, nofun,
    State.reset_holdsOk, State.reset_retainedMirrors, pool, chains, State.reset_definitionsOk,
    ⟨Plan.factory_inRange, Plan.factory_inRange, Plan.factory_inRange, nofun⟩, State.reset_flagsFollow,
    State.reset_rangesOk⟩

end

section
/-! SUPPORT. Legal hold sets (R114, R115, R121): what may be taken out of one, and what may be added to it. -/

namespace Sys2Proof.Machine

variable {holds kept : List Hold} {h : Hold}

/-! ### How large a hold set can be -/

/-- Every entry whose reason stands with its source is of a link source or has a part reason. -/
theorem length_le_of_kindOk (kinds : ∀ h ∈ holds, h.kindOk = true) :
    holds.length ≤ (holds.filter fun h => h.source.isLink).length +
      (partReasons.map fun r => (holds.filter fun h => h.reason == r).length).sum := by
  induction holds with
  | nil => exact Nat.zero_le _
  | cons h rest ih =>
    have rest_le := ih fun g hg => kinds g (List.mem_cons_of_mem _ hg)
    have kind := kinds h List.mem_cons_self
    simp only [partReasons, List.map_cons, List.map_nil, List.sum_cons, List.sum_nil, List.filter_cons,
      List.length_cons] at rest_le ⊢
    cases reason : h.reason with
    | line | exposed | ungrantedMove | crawlLimit =>
      cases h.source.isLink <;> simp <;> omega
    | _ =>
      have link : h.source.isLink = true := by simpa [Hold.kindOk, reason] using kind
      simp [link]
      omega

/-- The bound of 16 follows from the others. -/
theorem HoldsLegal.of_parts (links : (holds.filter fun h => h.source.isLink).length ≤ 12)
    (apart : holds.Pairwise fun a b => a.names b.source b.reason b.qualifier = false)
    (kinds : ∀ h ∈ holds, h.kindOk = true)
    (once : ∀ r ∈ partReasons, (holds.filter fun h => h.reason == r).length ≤ 1) : HoldsLegal holds := by
  refine ⟨?_, links, apart, kinds, once⟩
  have bound := length_le_of_kindOk kinds
  have line := once .line (by simp [partReasons])
  have exposed := once .exposed (by simp [partReasons])
  have moved := once .ungrantedMove (by simp [partReasons])
  have crawl := once .crawlLimit (by simp [partReasons])
  simp only [partReasons, List.map_cons, List.map_nil, List.sum_cons, List.sum_nil] at bound
  omega

theorem HoldsLegal.kinds (legal : HoldsLegal holds) : ∀ h ∈ holds, h.kindOk = true := legal.2.2.2.1

/-! ### Entries taken out and put in -/

theorem HoldsLegal.sublist (legal : HoldsLegal holds) (sub : kept.Sublist holds) : HoldsLegal kept := by
  obtain ⟨_, links, apart, kinds, once⟩ := legal
  exact .of_parts ((sub.filter _).length_le.trans links) (apart.sublist sub) (fun g hg => kinds g (sub.subset hg))
    fun r hr => (sub.filter _).length_le.trans (once r hr)

/-- An entry of a link source that the set does not hold, while it holds fewer than twelve such. -/
theorem HoldsLegal.append_link (legal : HoldsLegal holds) (link : h.source.isLink = true) (kind : h.kindOk = true)
    (few : (holds.filter fun h => h.source.isLink).length < 12)
    (new : ∀ g ∈ holds, g.names h.source h.reason h.qualifier = false) : HoldsLegal (holds ++ [h]) := by
  obtain ⟨_, links, apart, kinds, once⟩ := legal
  have external : ∀ r ∈ partReasons, (h.reason == r) = false := by
    intro r hr
    cases reason : h.reason with
    | line | exposed | ungrantedMove | crawlLimit => 
      cases source : h.source <;> simp [Hold.kindOk, reason, source, HoldSource.isLink] at kind link
    | _ => cases r <;> simp [partReasons] at hr ⊢
  refine .of_parts ?_ ?_ ?_ fun r hr => ?_
  · simpa [List.filter_append, link] using few
  · simpa [List.pairwise_append, apart] using new
  · simpa [kind, or_imp, forall_and] using kinds
  · simpa [List.filter_append, external r hr] using once r hr

/-- A part entry of a reason that the set does not hold. -/
theorem HoldsLegal.append_part (legal : HoldsLegal holds) (part : h.source.isLink = false) (kind : h.kindOk = true)
    (new : ∀ g ∈ holds, g.reason ≠ h.reason) : HoldsLegal (holds ++ [h]) := by
  obtain ⟨_, links, apart, kinds, once⟩ := legal
  refine .of_parts ?_ ?_ ?_ fun r hr => ?_
  · simpa [List.filter_append, part] using links
  · refine List.pairwise_append.mpr ⟨apart, List.pairwise_singleton .., fun g hg x hx => ?_⟩
    simp [List.mem_singleton.mp hx, Hold.names, new g hg]
  · simpa [kind, or_imp, forall_and] using kinds
  · by_cases same : h.reason = r
    · have none : holds.filter (fun g => g.reason == r) = [] := by
        simpa [List.filter_eq_nil_iff, same] using new
      simp [List.filter_append, none, same]
    · simpa [List.filter_append, same] using once r hr

end Sys2Proof.Machine
end

section
/-! SUPPORT. What an event does to the mode, the hold set and the sounder's position, said once for each shared operation
(R106, R114, R125, R157): a steady event leaves the mode and the deck's completeness as they are; where an event redefines
the deck, the passage that ends it brings the mode after it. -/

namespace Sys2Proof.Machine

variable {matched : Prop} {s t u : State}

/-! ### Complete and incomplete decks (section 6.1) -/

/-- A defined sector that has no base yet. -/
def Sector.unbased (k : Sector) : Bool := k.defined && !k.inSlip

theorem Sector.unbased_iff (k : Sector) : k.unbased = true ↔ k.defined = true ∧ k.live.based = false := by
  cases d : k.defined <;> simp [Sector.unbased, Sector.inSlip, d]

/-- A test that some record of a table passes. -/
theorem any_toList_iff {α : Type} {n : Nat} (table : Vector α n) (test : α → Bool) :
    table.toList.any test = true ↔ ∃ i : Fin n, test table[i] = true := by
  simp only [List.any_eq_true, Vector.mem_toList_iff]
  constructor
  · rintro ⟨x, hx, passes⟩
    obtain ⟨i, hi, rfl⟩ := Vector.mem_iff_getElem.mp hx
    exact ⟨⟨i, hi⟩, passes⟩
  · exact fun ⟨i, passes⟩ => ⟨_, Vector.getElem_mem i.isLt, passes⟩

theorem State.incomplete_iff :
    s.incomplete = true ↔ (∃ j, (s.jack j).live.state = .unsurveyed) ∨ ∃ k, (s.sector k).unbased = true := by
  simp only [State.incomplete, Bool.or_eq_true, any_toList_iff, Sector.unbased_iff, Bool.and_eq_true, Bool.not_eq_true',
    beq_iff_eq]
  exact Iff.rfl

/-- No jack becomes UNSURVEYED and no sector UNBASED: a complete deck stays complete. -/
theorem State.incomplete_mono (jacks : ∀ j, (t.jack j).live.state = .unsurveyed → (s.jack j).live.state = .unsurveyed)
    (sectors : ∀ k, (t.sector k).unbased = true → (s.sector k).unbased = true) (h : t.incomplete = true) :
    s.incomplete = true :=
  State.incomplete_iff.mpr ((State.incomplete_iff.mp h).imp (fun ⟨j, h⟩ => ⟨j, jacks j h⟩) fun ⟨k, h⟩ => ⟨k, sectors k h⟩)

theorem State.incomplete_congr (jacks : ∀ j, (t.jack j).live.state = .unsurveyed ↔ (s.jack j).live.state = .unsurveyed)
    (sectors : ∀ k, (t.sector k).unbased = (s.sector k).unbased) : t.incomplete = s.incomplete :=
  Bool.eq_iff_iff.mpr
    ⟨State.incomplete_mono (fun j => (jacks j).mp) fun k => (sectors k ▸ id),
      State.incomplete_mono (fun j => (jacks j).mpr) fun k => (sectors k ▸ id)⟩

/-- A new record that is UNSURVEYED only where the old one was. -/
theorem State.incomplete_of_setJack {j : JackIx} {x : Jack}
    (state : x.live.state = .unsurveyed → (s.jack j).live.state = .unsurveyed) :
    (s.setJack j x).incomplete = true → s.incomplete = true := by
  refine State.incomplete_mono (fun i => ?_) fun _ => id
  rw [State.jack_setJack]
  split
  · next e => rw [e]; exact state
  · exact id

/-- A jack's new record matters by its state alone. -/
theorem State.incomplete_setJack {j : JackIx} {x : Jack}
    (state : x.live.state = .unsurveyed ↔ (s.jack j).live.state = .unsurveyed) :
    (s.setJack j x).incomplete = s.incomplete := by
  refine State.incomplete_congr (fun i => ?_) fun _ => rfl
  rw [State.jack_setJack]
  split
  · next e => rw [e]; exact state
  · exact Iff.rfl

theorem State.incomplete_setSector {k : SectorIx} {x : Sector} (same : x.unbased = (s.sector k).unbased) :
    (s.setSector k x).incomplete = s.incomplete := by
  refine State.incomplete_congr (fun _ => Iff.rfl) fun i => ?_
  rw [State.sector_setSector]
  split
  · next e => rw [e]; exact same
  · rfl

theorem State.incomplete_retireSector (s : State) (k : SectorIx) : (s.retireSector k).incomplete = s.incomplete := by
  refine State.incomplete_congr (fun i => by rw [State.retireSector_jack]) fun i => ?_
  rw [Sector.unbased, State.retireSector_defined, State.retireSector_inSlip]
  rfl

theorem State.incomplete_refreshAll (s : State) : s.refreshAll.incomplete = s.incomplete := by
  refine State.incomplete_congr (fun _ => Iff.rfl) fun k => ?_
  rw [State.refreshAll_sector]
  rfl

/-! ### The mode (R106) -/

theorem State.deriveMode_modeMatches (s : State) : s.deriveMode.ModeMatches := by
  have same : s.deriveMode.incomplete = s.incomplete := rfl
  rw [State.ModeMatches, same, State.deriveMode_mode]
  cases s.incomplete <;> simp

theorem State.ModeMatches.of_eq (h : s.ModeMatches) (mode : t.mode = s.mode) (incomplete : t.incomplete = s.incomplete) :
    t.ModeMatches := by
  rw [State.ModeMatches, mode, incomplete]
  exact h

/-- A deck that is in another mode than SURVEY is complete (R106). -/
theorem State.ModeMatches.complete (h : s.ModeMatches) (mode : s.mode ≠ .survey) : s.incomplete = false := by
  rw [State.ModeMatches] at h
  simpa using mt h.mpr mode

/-- The passage brings the mode after a change that does not make a moving deck incomplete. -/
theorem State.passMode_modeMatches (moving : s.mode.moving = true → s.incomplete = false) : s.passMode.ModeMatches := by
  unfold State.passMode
  split
  · next moves =>
    have survey : s.mode ≠ .survey := by rintro e; simp [e, Mode.moving] at moves
    simp [State.ModeMatches, survey, moving moves]
  · exact s.deriveMode_modeMatches

/-! ### The hold set (R114, R125) -/

/-- A legal hold set with a legal retained copy; the LINE entry is in the set exactly as `lined` says, and never in the copy. -/
structure State.HoldsFit (lined : Prop) (s : State) : Prop where
  legal : HoldsLegal s.holds
  kept : HoldsLegal s.retained.holds
  line : s.hasReason .line = true ↔ lined
  others : ∀ h ∈ s.retained.holds, h.reason ≠ .line

/-- The LINE entry stands exactly while the filter is ASSERTED (R125). -/
theorem State.holdsOk_iff : s.HoldsOk ↔ s.HoldsFit (s.holdFilter = .asserted) :=
  ⟨fun ⟨legal, kept, line, others⟩ => ⟨legal, kept, line, others⟩, fun h => ⟨h.legal, h.kept, h.line, h.others⟩⟩

variable {lined : Prop}

theorem State.HoldsFit.of_eq (h : s.HoldsFit lined) (holds : t.holds = s.holds)
    (retained : t.retained.holds = s.retained.holds) : t.HoldsFit lined := by
  obtain ⟨legal, kept, line, others⟩ := h
  refine ⟨?_, ?_, ?_, ?_⟩
  · rwa [holds]
  · rwa [retained]
  · rwa [State.hasReason, holds]
  · rwa [retained]

/-- Retained memory takes over the live set, without its LINE entry (R165). -/
theorem State.HoldsFit.mirror (h : s.HoldsFit lined) (holds : t.holds = s.holds)
    (retained : t.retained.holds = s.holds.filter fun h => h.reason != .line) : t.HoldsFit lined := by
  refine ⟨?_, ?_, ?_, ?_⟩
  · rw [holds]; exact h.legal
  · rw [retained]; exact h.legal.sublist List.filter_sublist
  · rw [State.hasReason, holds]; exact h.line
  · rw [retained]; simp

/-- A legal set takes the place of another. -/
theorem State.HoldsFit.replace (h : s.HoldsFit lined) {holds : List Hold} {lined' : Prop} (legal : HoldsLegal holds)
    (line : (∃ h ∈ holds, h.reason = .line) ↔ lined') : { s with holds := holds }.HoldsFit lined' :=
  ⟨legal, h.kept, State.hasReason_iff.trans line, h.others⟩

/-- Entries of other reasons than LINE may leave the set. -/
theorem State.HoldsFit.remove (h : s.HoldsFit lined) {holds : List Hold} (sub : holds.Sublist s.holds)
    (line : ∀ h ∈ s.holds, h.reason = .line → h ∈ holds) : { s with holds := holds }.HoldsFit lined := by
  refine h.replace (h.legal.sublist sub) ?_
  rw [← h.line, State.hasReason_iff]
  exact ⟨fun ⟨x, hx, r⟩ => ⟨x, sub.subset hx, r⟩, fun ⟨x, hx, r⟩ => ⟨x, line x hx r, r⟩⟩

/-- An entry of another reason than LINE may join the set. -/
theorem State.HoldsFit.append (h : s.HoldsFit lined) {x : Hold} (legal : HoldsLegal (s.holds ++ [x]))
    (other : x.reason ≠ .line) : { s with holds := s.holds ++ [x] }.HoldsFit lined := by
  refine h.replace legal ?_
  rw [← h.line, State.hasReason_iff]
  simp [or_and_right, exists_or, other]

/-- The set holds no entry of the reason, so one of it may join. -/
theorem HoldsLegal.append_of_lacks (h : HoldsLegal s.holds) {x : Hold} (lacks : s.hasReason x.reason = false)
    (part : x.source.isLink = false) (kind : x.kindOk = true) : HoldsLegal (s.holds ++ [x]) :=
  h.append_part part kind fun g hg same => absurd (State.hasReason_iff.mpr ⟨g, hg, same⟩) (by simp [lacks])

/-- The reasons that the Deck Control places for itself stand with the source PART. -/
theorem State.HoldsFit.placePart (h : s.HoldsFit lined) {r : HoldReason} {q : Qualifier} (other : r ≠ .line)
    (kind : ∀ now, Hold.kindOk ⟨.part, r, q, now⟩ = true) : (s.placePart .part r q).HoldsFit lined := by
  rcases s.placePart_cases .part r q with ⟨_, e⟩ | ⟨lacks, e⟩ <;> rw [e]
  · exact h
  · exact h.append (h.legal.append_of_lacks lacks rfl (kind _)) other

/-! ### Steady events -/

/-- An event that keeps the hold set legal and the sounder within its cycle, and leaves the mode and the deck's
completeness as they are. -/
structure Steady (s t : State) : Prop where
  cycle : s.sounder.inCycle = true → t.sounder.inCycle = true
  holds : ∀ {lined : Prop}, s.HoldsFit lined → t.HoldsFit lined
  filter : t.holdFilter = s.holdFilter
  mode : t.mode = s.mode
  incomplete : t.incomplete = s.incomplete

theorem Steady.refl (s : State) : Steady s s := ⟨id, id, rfl, rfl, rfl⟩

theorem Steady.trans (h : Steady s t) (h' : Steady t u) : Steady s u :=
  ⟨h'.cycle ∘ h.cycle, h'.holds ∘ h.holds, h'.filter.trans h.filter, h'.mode.trans h.mode,
    h'.incomplete.trans h.incomplete⟩

/-- An event that touches none of what the properties read. -/
theorem Steady.of_eq (sounder : t.sounder = s.sounder) (holds : t.holds = s.holds) (filter : t.holdFilter = s.holdFilter)
    (retained : t.retained.holds = s.retained.holds) (mode : t.mode = s.mode) (incomplete : t.incomplete = s.incomplete) :
    Steady s t :=
  ⟨fun h => sounder ▸ h, fun h => h.of_eq holds retained, filter, mode, incomplete⟩

theorem Steady.commit (s : State) : Steady s s.commit := ⟨id, fun h => h.mirror rfl rfl, rfl, rfl, rfl⟩

theorem Steady.rewrite (s : State) : Steady s s.rewrite := ⟨id, fun h => h.mirror rfl rfl, rfl, rfl, rfl⟩

theorem Steady.settle (s : State) : Steady s s.settle :=
  ⟨fun h => Sounder.reselect_inCycle _ _ _ h, fun h => h.of_eq rfl rfl, rfl, rfl, rfl⟩

theorem Steady.setPort (s : State) (p : Port) (x : PortRec) : Steady s (s.setPort p x) := .of_eq rfl rfl rfl rfl rfl rfl

theorem Steady.count (s : State) (f : DeckCounters → DeckCounters) : Steady s (s.count f) :=
  .of_eq rfl rfl rfl rfl rfl rfl

theorem Steady.setGrant (s : State) (j : JackIx) (g : Option Grant) : Steady s (s.setGrant j g) :=
  .of_eq rfl rfl rfl rfl rfl rfl

theorem Steady.keepLine (s : State) : Steady s s.keepLine := by
  refine ⟨id, fun h => h.remove List.filter_sublist fun x hx line => ?_, rfl, rfl, rfl⟩
  exact List.mem_filter.mpr ⟨hx, beq_iff_eq.mpr line⟩

theorem Steady.setAlive (s : State) (st : Station) (x : Option Nat) : Steady s (s.setAlive st x) := by
  cases st <;> exact .of_eq rfl rfl rfl rfl rfl rfl

theorem Steady.setJack {j : JackIx} {x : Jack}
    (state : x.live.state = .unsurveyed ↔ (s.jack j).live.state = .unsurveyed) : Steady s (s.setJack j x) :=
  .of_eq rfl rfl rfl rfl rfl (State.incomplete_setJack state)

theorem Steady.setLive {j : JackIx} {v : JackLive}
    (state : v.state = .unsurveyed ↔ (s.jack j).live.state = .unsurveyed) : Steady s (s.setLive j v) :=
  .setJack (x := { s.jack j with live := v }) state

theorem Steady.setSector {k : SectorIx} {x : Sector} (same : x.unbased = (s.sector k).unbased) :
    Steady s (s.setSector k x) :=
  .of_eq rfl rfl rfl rfl rfl (State.incomplete_setSector same)

theorem Steady.setSectorLive {k : SectorIx} {v : SectorLive} (based : v.based = (s.sector k).live.based) :
    Steady s (s.setSectorLive k v) :=
  .setSector (by simp only [Sector.unbased, Sector.inSlip, based])

theorem Steady.retireSector (s : State) (k : SectorIx) : Steady s (s.retireSector k) := by
  have incomplete := s.incomplete_retireSector k
  rcases s.retireSector_cases k with e | ⟨_, _, _, e⟩ <;> rw [e] at incomplete ⊢
  · exact .refl s
  · exact .of_eq rfl rfl rfl rfl rfl incomplete

theorem Steady.retireSectors (s : State) (ks : List SectorIx) : Steady s (s.retireSectors ks) :=
  State.retireSectors_induction (P := Steady s) (fun t k h => h.trans (.retireSector t k)) ks s (.refl s)

theorem Steady.refreshAll (s : State) : Steady s s.refreshAll :=
  .of_eq rfl rfl rfl rfl rfl s.incomplete_refreshAll

theorem Steady.deliver (s : State) (k : SectorIx) (n : Nat) : Steady s (s.deliver k n) := by
  rcases s.deliver_cases k n with e | e <;> rw [e]
  · exact .setSectorLive rfl
  · refine Steady.trans ?_ (.retireSector ..)
    exact .setSectorLive rfl

theorem Steady.interval (s : State) (inc : State → SectorIx → Nat) : Steady s (s.interval inc) :=
  State.interval_induction (P := Steady s) s (fun t k n h => h.trans (.deliver t k n)) inc (.refl s)

theorem Steady.credit (s : State) (n : Nat) : Steady s (s.credit n) :=
  State.credit_induction (P := Steady s) s (fun t inc h => h.trans (.interval t inc)) (.refl s) n

theorem Steady.stamp (s : State) : Steady s { s with retained := { s.retained with stamp := s.clock } } :=
  .of_eq rfl rfl rfl rfl rfl rfl

theorem Steady.placePart (s : State) {r : HoldReason} {q : Qualifier} (other : r ≠ .line)
    (kind : ∀ now, Hold.kindOk ⟨.part, r, q, now⟩ = true) : Steady s (s.placePart .part r q) := by
  refine ⟨?_, fun h => h.placePart other kind, ?_, ?_, ?_⟩ <;>
    rcases s.placePart_cases .part r q with ⟨_, e⟩ | ⟨_, e⟩ <;> rw [e]
  exacts [id, id, rfl]

theorem Steady.placeExposed (s : State) : Steady s s.placeExposed := by
  unfold State.placeExposed
  split
  · exact .placePart s (by decide) fun _ => rfl
  · exact .refl s

theorem Steady.placeCrawlLimit (s : State) : Steady s s.placeCrawlLimit := by
  unfold State.placeCrawlLimit
  split
  · exact .placePart s (by decide) fun _ => rfl
  · exact .refl s

theorem Steady.crawlAfter (s : State) (before : Option Nat) : Steady s (s.crawlAfter before) := by
  unfold State.crawlAfter
  split
  · exact .placeCrawlLimit s
  · exact .refl s

/-! ### Ports (sections 8.2, 8.3) -/

theorem Steady.goodFrame (s : State) (p : Port) : Steady s (s.goodFrame p) := by
  rw [State.goodFrame_eq]
  exact .of_eq rfl rfl rfl rfl rfl rfl

theorem Steady.respond (s : State) (p : Port) (code : Byte) (r : Reply) : Steady s (s.respond p code r) := by
  obtain ⟨x, e, -⟩ := s.respond_cases p code r
  rw [e]
  exact .setPort ..

theorem Steady.lengthDiscard (s : State) (p : Port) : Steady s (s.lengthDiscard p) := by
  rcases s.lengthDiscard_cases p with ⟨_, _, e⟩ | ⟨_, _, e⟩ <;> rw [e]
  · exact .refl s
  · exact .setPort ..

theorem Steady.overrunDiscard (s : State) (p : Port) : Steady s (s.overrunDiscard p) := by
  rw [State.overrunDiscard_eq]
  exact .setPort ..

theorem Steady.setSpeeds (s : State) (speeds : Vector Speed 4) : Steady s (s.setSpeeds speeds) := by
  unfold State.setSpeeds
  generalize Port.all = ps
  induction ps generalizing s with
  | nil => exact .refl s
  | cons p ps ih => exact (Steady.setPort ..).trans (ih _)

/-! ### Events that keep the properties -/

/-- An event that keeps the hold set legal, the sounder within its cycle, and the mode in step with the deck. `matched` is
what the start of the step knows of its grants: a jack with a grant is GRANTED. -/
structure Keeps (matched : Prop) (s t : State) : Prop where
  cycle : s.sounder.inCycle = true → t.sounder.inCycle = true
  holds : s.HoldsOk → t.HoldsOk
  mode : matched → s.ModeMatches → t.ModeMatches

theorem Steady.holdsOk (h : Steady s t) (ok : s.HoldsOk) : t.HoldsOk := by
  rw [State.holdsOk_iff] at ok ⊢
  rw [h.filter]
  exact h.holds ok

theorem Steady.keeps (h : Steady s t) : Keeps matched s t := ⟨h.cycle, h.holdsOk, fun _ m => m.of_eq h.mode h.incomplete⟩

theorem Keeps.of_eq (sounder : t.sounder = s.sounder) (holds : t.holds = s.holds) (filter : t.holdFilter = s.holdFilter)
    (retained : t.retained.holds = s.retained.holds) (mode : t.mode = s.mode) (incomplete : t.incomplete = s.incomplete) :
    Keeps matched s t := (Steady.of_eq sounder holds filter retained mode incomplete).keeps

theorem Keeps.refl (s : State) : Keeps matched s s := (Steady.refl s).keeps

theorem Keeps.trans (h : Keeps matched s t) (h' : Keeps matched t u) : Keeps matched s u :=
  ⟨h'.cycle ∘ h.cycle, h'.holds ∘ h.holds, fun m => h'.mode m ∘ h.mode m⟩

theorem Keeps.steady (h : Keeps matched s t) (h' : Steady t u) : Keeps matched s u := h.trans h'.keeps

/-- Another deck with the hold set and the sounder of `s`. -/
structure SameFace (s v : State) : Prop where
  sounder : v.sounder = s.sounder
  holds : v.holds = s.holds
  filter : v.holdFilter = s.holdFilter
  retained : v.retained.holds = s.retained.holds

theorem SameFace.holdsOk (h : SameFace s t) (ok : s.HoldsOk) : t.HoldsOk := by
  rw [State.holdsOk_iff] at ok ⊢
  rw [h.filter]
  exact ok.of_eq h.holds h.retained

/-- The mode is derived after a steady run from any other deck. -/
theorem Keeps.deriveMode {v : State} (same : SameFace s v) (h : Steady v t) : Keeps matched s t.deriveMode where
  cycle c := h.cycle (same.sounder ▸ c)
  holds ok := h.holdsOk (same.holdsOk ok)
  mode _ _ := t.deriveMode_modeMatches

/-- A change of the deck, a steady run, and the passage of the mode: on a moving deck the change may leave nothing UNSURVEYED
or UNBASED that was not (R107). -/
theorem Keeps.passMode {v : State} (same : SameFace s v) (mode : v.mode = s.mode)
    (complete : s.mode.moving = true → v.incomplete = true → s.incomplete = true) (h : Steady v t) :
    Keeps matched s t.passMode := by
  have derived : Keeps matched s t.deriveMode := .deriveMode same h
  refine ⟨?_, ?_, fun _ matches' => State.passMode_modeMatches fun moves => ?_⟩
  · rcases t.passMode_cases with ⟨_, e⟩ | ⟨_, e⟩ <;> rw [e] <;> exact derived.cycle
  · rcases t.passMode_cases with ⟨_, e⟩ | ⟨_, e⟩ <;> rw [e] <;> exact derived.holds
  · have moved : s.mode.moving = true := by rw [← mode, ← h.mode]; exact moves
    have whole : s.incomplete = false := matches'.complete (by rintro e; simp [e, Mode.moving] at moved)
    rw [h.incomplete]
    simpa [whole] using complete moved

end Sys2Proof.Machine
end

section
/-! SUPPORT. The serving rules of section 8.4 keep the hold set legal, the sounder within its cycle and the mode in step with
the deck (R106, R114, R125, R157). -/

namespace Sys2Proof.Machine

variable {matched : Prop} {s t u : State}

/-! ### Jacks (chapter 1) -/

theorem Mode.not_moving_of_settingUp {m : Mode} (h : ¬ (!m.settingUp) = true) : m.moving = false := by
  simpa [Mode.settingUp] using h

theorem readyOrRodEnd_ne_unsurveyed (plan : Plan) (rod : Nat) : readyOrRodEnd plan rod ≠ .unsurveyed := by
  unfold readyOrRodEnd
  split <;> decide

/-- A jack that is not UNSURVEYED, and is not after. -/
theorem Steady.setSurveyed {j : JackIx} {v : JackLive} (old : (s.jack j).live.state ≠ .unsurveyed)
    (new : v.state ≠ .unsurveyed) : Steady s (s.setLive j v) := .setLive (by simp [old, new])

/-- A jack's new record on a deck that is set up: it is in SURVEY or READY. -/
theorem Keeps.setUpJack (still : s.mode.moving = false) {j : JackIx} {x : Jack} (h : Steady (s.setJack j x) t) :
    Keeps matched s t.passMode.commit := by
  refine Keeps.steady ?_ (.commit _)
  exact .passMode ⟨rfl, rfl, rfl, rfl⟩ (v := s.setJack j x) rfl (by simp [still]) h

/-- A sector's new record on a deck that is set up. -/
theorem Keeps.setUpSector (still : s.mode.moving = false) (k : SectorIx) (x : Sector) :
    Keeps matched s (s.setSector k x).passMode.commit := by
  refine Keeps.steady ?_ (.commit _)
  exact .passMode ⟨rfl, rfl, rfl, rfl⟩ (v := s.setSector k x) rfl (by simp [still]) (.refl _)

theorem Keeps.defineJack (still : s.mode.moving = false) (j : JackIx) (st : Station) (g : Fin 8) (k : SectorIx) :
    Keeps matched s (s.defineJack j st g k) :=
  .setUpJack still ((Steady.retireSectors ..).trans (.placeExposed _))

theorem Keeps.undefineJack (still : s.mode.moving = false) (j : JackIx) : Keeps matched s (s.undefineJack j) :=
  .setUpJack still (Steady.retireSectors ..)

theorem serveJackDefine_keeps (item : Item) (payload : List Byte) :
    Keeps matched s (serveJackDefine item payload s).1 := by
  unfold serveJackDefine
  split
  · exact .refl s
  · split
    · exact .refl s
    · split_ifs with moving
      · exact .refl s
      · exact .refl s
      · exact .refl s
      · exact .defineJack (Mode.not_moving_of_settingUp moving) ..

theorem serveJackUndefine_keeps (item : Item) : Keeps matched s (serveJackUndefine item s).1 := by
  unfold serveJackUndefine
  split
  · exact .refl s
  · split_ifs with moving
    · exact .refl s
    · exact .refl s
    · exact .undefineJack (Mode.not_moving_of_settingUp moving) _

theorem serveJackDefineAny_keeps (item : Item) (payload : List Byte) :
    Keeps matched s (serveJackDefineAny item payload s).1 := by
  unfold serveJackDefineAny
  split
  · exact serveJackDefine_keeps item payload
  · exact serveJackUndefine_keeps item
  · split <;> exact .refl s

/-- A survey leaves no jack UNSURVEYED that was not. -/
theorem JackLive.surveyed_ne_unsurveyed (v : JackLive) (plan : Plan) (height : Nat) :
    (v.surveyed plan height).state ≠ .unsurveyed := by
  unfold JackLive.surveyed
  dsimp only
  split
  · exact readyOrRodEnd_ne_unsurveyed _ _
  · assumption

theorem Keeps.surveyJack (s : State) (j : JackIx) (height : Nat) : Keeps matched s (s.surveyJack j height) := by
  unfold State.surveyJack
  dsimp only
  split
  · exact .refl s
  · refine Keeps.steady ?_ (.commit _)
    refine .passMode (v := s.setJack j _) ⟨rfl, rfl, rfl, rfl⟩ rfl
      (fun _ => State.incomplete_of_setJack fun new => ?_) <|
      (Steady.retireSectors ..).trans <| (Steady.placeExposed _).trans (.crawlAfter ..)
    exact absurd new (JackLive.surveyed_ne_unsurveyed _ _ _)

theorem serveSurvey_keeps (item : Item) (payload : List Byte) : Keeps matched s (serveSurvey item payload s).1 := by
  unfold serveSurvey
  dsimp only
  split
  · exact .refl s
  · split_ifs
    · exact .refl s
    · exact .refl s
    · exact .refl s
    · exact .refl s
    · exact .surveyJack s ..

/-- More rod takes a jack from ROD_END to READY at most (R10). -/
theorem Steady.extend (s : State) (j : JackIx) (length : Nat) :
    Steady s (s.setLive j ((s.jack j).live.extended s.active length)) := by
  refine .setLive ?_
  rw [JackLive.extended_eq]
  dsimp only
  split
  · next back => simp [back.1]
  · exact Iff.rfl

theorem serveRodExtend_keeps (item : Item) (payload : List Byte) : Keeps matched s (serveRodExtend item payload s).1 := by
  unfold serveRodExtend
  dsimp only
  split
  · exact .refl s
  · split
    · exact .refl s
    · exact ((Steady.extend ..).trans (.commit _)).keeps

theorem JackState.ne_unsurveyed_of_excludable {st : JackState} (h : ¬ (!st.excludable) = true) : st ≠ .unsurveyed := by
  rintro rfl
  exact h rfl

theorem serveJackExclude_keeps (item : Item) : Keeps matched s (serveJackExclude item s).1 := by
  unfold serveJackExclude
  dsimp only
  split
  · exact .refl s
  · next j _ =>
    split_ifs with _ active
    · exact .refl s
    · exact .refl s
    · have excluded : Steady s (s.setLive j { (s.jack j).live with state := .excluded }) :=
        .setSurveyed (JackState.ne_unsurveyed_of_excludable active) nofun
      exact (excluded.trans <| (Steady.retireSectors ..).trans <| (Steady.crawlAfter ..).trans (.commit _)).keeps

theorem serveJackInclude_keeps (item : Item) : Keeps matched s (serveJackInclude item s).1 := by
  unfold serveJackInclude
  dsimp only
  split
  · exact .refl s
  · next j _ =>
    split_ifs with _ excluded
    · exact .refl s
    · exact .refl s
    · have included : Steady s
          (s.setLive j { (s.jack j).live with state := readyOrRodEnd s.active (s.jack j).live.rod }) :=
        .setSurveyed (by simp [not_not.mp excluded]) (readyOrRodEnd_ne_unsurveyed _ _)
      exact (included.trans <| (Steady.retireSectors ..).trans <| (Steady.placeExposed _).trans (.commit _)).keeps

theorem serveJackClear_keeps (item : Item) : Keeps matched s (serveJackClear item s).1 := by
  unfold serveJackClear
  dsimp only
  split
  · exact .refl s
  · split_ifs with _ active
    · exact .refl s
    · exact .refl s
    · have surveyed := JackState.ne_unsurveyed_of_excludable active
      refine (Steady.trans (.setSurveyed surveyed ?_) (.commit _)).keeps
      unfold JackLive.cleared
      dsimp only
      split
      · exact readyOrRodEnd_ne_unsurveyed _ _
      · exact surveyed

theorem serveJackSet_keeps (item : Item) (payload : List Byte) : Keeps matched s (serveJackSet item payload s).1 := by
  unfold serveJackSet
  split
  · exact serveJackExclude_keeps item
  · exact serveJackInclude_keeps item
  · exact serveJackClear_keeps item
  · split <;> exact .refl s

/-! ### Sectors and layers (chapters 1 and 2) -/

theorem serveSectorDefine_keeps (item : Item) (payload : List Byte) :
    Keeps matched s (serveSectorDefine item payload s).1 := by
  unfold serveSectorDefine
  split
  · exact .refl s
  · split
    · exact .refl s
    · split
      · exact .refl s
      · next moving =>
        exact .setUpSector (Mode.not_moving_of_settingUp moving) ..

theorem serveSectorUndefine_keeps (item : Item) : Keeps matched s (serveSectorUndefine item s).1 := by
  unfold serveSectorUndefine
  split
  · exact .refl s
  · split_ifs with moving
    · exact .refl s
    · exact .refl s
    · exact .refl s
    · exact .setUpSector (Mode.not_moving_of_settingUp moving) ..

theorem serveSectorDefineAny_keeps (item : Item) (payload : List Byte) :
    Keeps matched s (serveSectorDefineAny item payload s).1 := by
  unfold serveSectorDefineAny
  split
  · exact serveSectorDefine_keeps item payload
  · exact serveSectorUndefine_keeps item
  · split <;> exact .refl s

theorem serveSectorBase_keeps (item : Item) (payload : List Byte) :
    Keeps matched s (serveSectorBase item payload s).1 := by
  unfold serveSectorBase
  dsimp only
  split
  · exact .refl s
  · split_ifs with _ moving
    · exact .refl s
    · exact .refl s
    · exact .refl s
    · exact .setUpSector (Mode.not_moving_of_settingUp moving) ..

theorem Steady.setFreeList (s : State) (free : List Slot) : Steady s { s with freeList := free } :=
  .of_eq rfl rfl rfl rfl rfl rfl

theorem Steady.appendLayer (s : State) (k : SectorIx) (slot : Slot) (free : List Slot) (thickness : Nat) (c : Fin 4) :
    Steady s (s.appendLayer k slot free thickness c) := by
  unfold State.appendLayer
  refine (Steady.setFreeList s free).trans <| Steady.trans ?_ (.count ..)
  exact .setSectorLive rfl

theorem Steady.withdrawLayer (s : State) (k : SectorIx) (l : Layer) : Steady s (s.withdrawLayer k l) := by
  unfold State.withdrawLayer
  refine (Steady.setFreeList s (pushSlots s.freeList [l.slot])).trans <| Steady.trans ?_ (.count ..)
  exact .setSectorLive rfl

theorem serveLayerPlaced_keeps (item : Item) (payload : List Byte) :
    Keeps matched s (serveLayerPlaced item payload s).1 := by
  unfold serveLayerPlaced
  dsimp only
  split
  · exact .refl s
  · split
    · exact .refl s
    · split
      · exact .refl s
      · split
        · exact .refl s
        · split_ifs
          · exact .refl s
          · exact .refl s
          · split
            · exact .refl s
            · exact ((Steady.appendLayer ..).trans <| (Steady.placeExposed _).trans (.commit _)).keeps

theorem serveLayerWithdraw_keeps (item : Item) : Keeps matched s (serveLayerWithdraw item s).1 := by
  unfold serveLayerWithdraw
  split
  · exact .refl s
  · split
    · exact .refl s
    · split_ifs
      · exact .refl s
      · exact .refl s
      · exact ((Steady.withdrawLayer ..).trans (.commit _)).keeps

/-! ### Grants (chapter 5) -/

theorem Steady.issue {j : JackIx} (ready : (s.jack j).live.state = .ready) (st : Station) (length : Nat) :
    Steady s (s.issue st j length) := by
  unfold State.issue
  refine (Steady.setGrant s j (some ⟨st, length, s.clock, s.expirySecond, s.mode⟩)).trans <|
    Steady.trans ?_ (.count ..)
  refine .setLive ?_
  show JackState.granted = .unsurveyed ↔ (s.jack j).live.state = .unsurveyed
  simp [ready]

theorem Steady.demand (s : State) (st : Station) (scope : Option (Fin 8)) (most : Nat) :
    Steady s (s.demand st scope most).state := by
  refine List.foldlRecOn (motive := fun d : Demand => Steady s d.state) _ _ (.refl s) fun d steady j _ => ?_
  unfold Demand.step
  split
  · next judged => exact steady.trans (.issue (State.of_judge judged).1 ..)
  · exact steady

theorem serveStrokeDemand_keeps (p : Port) (payload : List Byte) :
    Keeps matched s (serveStrokeDemand p payload s).1 := by
  unfold serveStrokeDemand
  split
  · exact .refl s
  · exact .refl s
  · split_ifs
    · exact .refl s
    · exact .refl s
    · exact .refl s
    · exact ((Steady.demand ..).trans (.commit _)).keeps

theorem Steady.heightMoved (s before : State) (j : JackIx) : Steady s (s.heightMoved before j) := by
  have holds : ∀ t : State, Steady t (t.placeExposed.crawlAfter before.hMin) :=
    fun t => (Steady.placeExposed t).trans (.crawlAfter ..)
  unfold State.heightMoved
  split
  · exact .refl s
  · dsimp only
    split
    · exact (Steady.retireSector ..).trans (holds _)
    · exact holds s

theorem JackLive.stroked_ne_unsurveyed (v : JackLive) (plan : Plan) (g travel : Nat) :
    (v.stroked plan g travel).state ≠ .unsurveyed := by
  unfold JackLive.stroked JackLive.afterStroke
  dsimp only
  split
  · decide
  · exact readyOrRodEnd_ne_unsurveyed _ _

/-- Only an entry for a GRANTED jack is DONE (R94). -/
theorem Jack.granted_of_classify {j : Jack} {st : Station} (h : j.classify st = .done) : j.live.state = .granted := by
  unfold Jack.classify at h
  split_ifs at h
  split at h
  · cases h
  · assumption
  all_goals cases h

theorem Steady.doneEntry {j : JackIx} (granted : (s.jack j).live.state = .granted) (travel : Nat) :
    Steady s (s.doneEntry j travel) := by
  refine (Steady.setGrant s j none).trans <| Steady.trans ?_ <| (Steady.count ..).trans (.heightMoved ..)
  refine .setSurveyed ?_ (JackLive.stroked_ne_unsurveyed _ _ _ _)
  show (s.jack j).live.state ≠ .unsurveyed
  simp [granted]

theorem Steady.lateEntry {j : JackIx} (stalled : (s.jack j).live.state = .stalled) (travel : Nat) :
    Steady s (s.lateEntry j travel) := by
  refine Steady.trans ?_ <| (Steady.count ..).trans (.heightMoved ..)
  exact .setSurveyed (by simp [stalled]) (JackLive.stroked_ne_unsurveyed _ _ _ _)

theorem Steady.ungrantedEntry (s : State) (j : JackIx) (travel : Nat) : Steady s (s.ungrantedEntry j travel) :=
  (Steady.setLive (v := { (s.jack j).live.travelled travel with ungranted := true }) Iff.rfl).trans <|
    (Steady.count ..).trans <| (Steady.placePart _ (by decide) fun _ => rfl).trans (.heightMoved ..)

theorem Steady.reportEntry (s : State) (st : Station) (jack travel : Nat) :
    Steady s (s.reportEntry st jack travel).1 := by
  unfold State.reportEntry
  split
  · exact .refl s
  · dsimp only
    split
    · exact .settle s
    · exact .settle s
    · exact .settle s
    · next done => exact (Steady.doneEntry (Jack.granted_of_classify done) travel).trans (.settle _)
    · next late => exact (Steady.lateEntry (Jack.stalled_of_classify late) travel).trans (.settle _)
    · split
      · exact .settle s
      · exact (Steady.ungrantedEntry ..).trans (.settle _)

theorem Steady.report (s : State) (st : Station) (entries : List (Nat × Nat)) : Steady s (s.report st entries).1 := by
  induction entries generalizing s with
  | nil => exact .refl s
  | cons e rest ih => exact (Steady.reportEntry ..).trans (ih _)

theorem serveStrokeReport_keeps (p : Port) (payload : List Byte) :
    Keeps matched s (serveStrokeReport p payload s).1 := by
  unfold serveStrokeReport
  split
  · exact .refl s
  · exact ((Steady.report ..).trans (.commit _)).keeps

/-- A jack that loses its grant was GRANTED, so the deck's completeness does not change (R81). -/
theorem Keeps.endGrant (granted : matched → s.GrantsMatch) {j : JackIx} (grant : (s.grant? j).isSome = true)
    {v : JackLive} (surveyed : v.state ≠ .unsurveyed) : Keeps matched s ((s.setGrant j none).setLive j v) := by
  refine ⟨id, id, fun m matches' => ?_⟩
  have state : (s.jack j).live.state = .granted := (granted m j).1.mpr grant
  have steady : Steady (s.setGrant j none) ((s.setGrant j none).setLive j v) := .setSurveyed (by
    show (s.jack j).live.state ≠ .unsurveyed
    simp [state]) surveyed
  exact matches'.of_eq rfl steady.incomplete

theorem Keeps.cancel (granted : matched → s.GrantsMatch) (st : Station) (named : List Byte) :
    Keeps matched s (s.cancel st named).1 := by
  induction named generalizing s with
  | nil => exact .refl s
  | cons b rest ih =>
    show Keeps matched s ((s.cancelEntry st b.toNat).1.cancel st rest).1
    rcases (s.cancelEntry_cases st b.toNat).2 with e | ⟨j, grant, e⟩ <;> rw [e]
    · exact ih granted
    · refine Keeps.trans ?_ (ih fun m => (granted m).release j ?_)
      · exact .endGrant granted grant nofun
      · exact nofun

theorem serveStrokeCancel_keeps (granted : matched → s.GrantsMatch) (p : Port) (payload : List Byte) :
    Keeps matched s (serveStrokeCancel p payload s).1 := by
  unfold serveStrokeCancel
  split
  · exact .refl s
  · exact (Keeps.cancel granted ..).steady (.commit _)

theorem Keeps.expire (granted : matched → s.GrantsMatch) {j : JackIx} (due : s.grantDue j = true) :
    Keeps matched s (s.expire j) := by
  have grant : (s.grant? j).isSome = true := by
    cases h : s.grant? j with
    | none => simp [State.grantDue, h] at due
    | some g => rfl
  refine Keeps.steady ?_ ((Steady.count ..).trans (.commit _))
  exact .endGrant granted grant nofun

/-! ### Modes and holds (chapter 6) -/

/-- The console moves a complete deck out of a mode and into another (R109). -/
theorem Keeps.setMode {m : Mode} (from_ : s.mode ≠ .survey) (into : m ≠ .survey) (entry : Option Nat) :
    Keeps matched s { s with mode := m, crawlEntry := entry } := by
  refine ⟨id, id, fun _ matches' => ?_⟩
  have whole : { s with mode := m, crawlEntry := entry }.incomplete = false := matches'.complete from_
  rw [State.ModeMatches, whole]
  exact ⟨fun e => absurd e into, nofun⟩

theorem Steady.dropCrawlLimit (s : State) : Steady s (s.dropReason .crawlLimit) := by
  refine ⟨id, fun h => h.remove List.filter_sublist fun x hx line => ?_, rfl, rfl, rfl⟩
  exact List.mem_filter.mpr ⟨hx, by simp [line]⟩

theorem Keeps.leaveFor {m : Mode} (from_ : s.mode ≠ .survey) (into : m ≠ .survey) : Keeps matched s (s.leaveFor m) := by
  have moved : Keeps matched s { s with mode := m } := .setMode from_ into s.crawlEntry
  unfold State.leaveFor
  dsimp only
  split
  · exact moved.steady (.dropCrawlLimit _)
  · exact moved

theorem serveModeSet_keeps (payload : List Byte) : Keeps matched s (serveModeSet payload s).1 := by
  have enters : s.mode ≠ .survey → Keeps matched s (match s.hMin with
      | none => (s, Reply.refuse .state 1)
      | some m => ((s.enterCrawl m).commit, .accept (modeAnswer (s.enterCrawl m).commit))).1 := by
    intro from_
    split
    · exact .refl s
    · exact (Keeps.setMode (m := .crawl) from_ nofun (some _)).steady (.commit _)
  unfold serveModeSet
  split
  · split
    · exact .refl s
    · next from_ => exact (Keeps.leaveFor (m := .rise) from_ nofun).steady (.commit _)
  · split
    · exact .refl s
    · exact .refl s
    · next ready => exact enters (by simp [ready])
    · next rise => exact enters (by simp [rise])
  · split
    · exact .refl s
    · next from_ => exact (Keeps.leaveFor (m := .ready) from_ nofun).steady (.commit _)
  · exact .refl s

/-- What a hold request's reason, kind and index name. -/
theorem parseHold_eq_inr {reason : Option HoldReason} {kind ix first : Nat} {r : HoldReason} {q : Qualifier}
    (h : parseHold reason kind ix first = .inr (r, q)) : reason = some r ∧ Qualifier.ofCodes? kind ix = some q := by
  unfold parseHold at h
  split at h
  · cases h
  · split at h
    · cases h
    · split at h
      · cases h
      · next named => cases h; exact ⟨rfl, named⟩

/-- An external reason stands with every link source, and is not LINE (R115). -/
theorem HoldReason.external_ok {n : Nat} {r : HoldReason} (h : HoldReason.external? n = some r) {source : HoldSource}
    (link : source.isLink = true) (q : Qualifier) (now : Nat) : Hold.kindOk ⟨source, r, q, now⟩ = true ∧ r ≠ .line := by
  unfold HoldReason.external? at h
  split at h <;> cases h <;> exact ⟨link, nofun⟩

theorem source_isLink (p : Port) : p.source.isLink = true := by cases p <;> rfl

theorem serveHoldPlace_keeps (p : Port) (payload : List Byte) : Keeps matched s (serveHoldPlace p payload s).1 := by
  unfold serveHoldPlace
  split
  · exact .refl s
  · next r q named =>
    split
    · exact .refl s
    · next absent =>
      split
      · exact .refl s
      · next few =>
        obtain ⟨kind, other⟩ := HoldReason.external_ok (parseHold_eq_inr named).1 (source_isLink p) q s.clock
        have placed : Steady s (s.pushHold p.source r q) := by
          have links : (s.holds.filter fun h => h.source.isLink).length < 12 := by simpa [State.linkHolds] using few
          refine ⟨id, fun h => h.append (h.legal.append_link (source_isLink p) kind links ?_) other, rfl, rfl, rfl⟩
          simpa [List.findIdx?_eq_none_iff] using absent
        exact (placed.trans (.commit _)).keeps

/-- No port may release the LINE entry (R119). -/
theorem Port.ne_line_of_mayRelease {p : Port} {source : HoldSource} (h : Port.mayRelease p source = true) :
    source ≠ .line := by
  rintro rfl
  cases p <;> cases h

theorem Steady.removeHold {source : HoldSource} (other : source ≠ .line) (r : HoldReason) (q : Qualifier) :
    Steady s (s.removeHold source r q) := by
  refine ⟨id, fun h => h.remove List.eraseP_sublist fun x hx line => ?_, rfl, rfl, rfl⟩
  have own : x.source = .line := by
    have kind := h.legal.kinds x hx
    simp only [Hold.kindOk, line, Bool.and_eq_true, beq_iff_eq] at kind
    exact kind.1
  exact (List.mem_eraseP_of_neg (by simp [Hold.names, own, other.symm])).mpr hx

theorem serveHoldRelease_keeps (p : Port) (payload : List Byte) : Keeps matched s (serveHoldRelease p payload s).1 := by
  unfold serveHoldRelease
  split
  · exact .refl s
  · split
    · exact .refl s
    · split_ifs with _ may
      · exact .refl s
      · exact .refl s
      · exact .refl s
      · exact (Steady.trans (.removeHold (Port.ne_line_of_mayRelease (by simpa using may)) ..) (.commit _)).keeps

/-! ### The plan, the annunciator and the memories (chapters 7, 9 and 10) -/

theorem servePlanStage_keeps (item : Item) (payload : List Byte) : Keeps matched s (servePlanStage item payload s).1 := by
  unfold servePlanStage
  dsimp only
  split
  · exact .refl s
  · split
    · exact .refl s
    · exact .of_eq rfl rfl rfl rfl rfl rfl

theorem Steady.applyPlan (s : State) : Steady s s.applyPlan := by
  unfold State.applyPlan
  dsimp only
  split
  · exact .of_eq rfl rfl rfl rfl rfl rfl
  · refine Steady.trans ?_ <| (Steady.refreshAll _).trans <| (Steady.retireSectors ..).trans <|
      (Steady.placeExposed _).trans (.placeCrawlLimit _)
    exact .of_eq rfl rfl rfl rfl rfl rfl

theorem servePlanApply_keeps : Keeps matched s (servePlanApply s).1 := by
  unfold servePlanApply
  split
  · exact .of_eq rfl rfl rfl rfl rfl rfl
  · exact ((Steady.applyPlan s).trans (.commit _)).keeps

/-- SILENCE writes the mute set alone (R158). -/
theorem Steady.silenced (s : State) : Steady s s.silenced := ⟨id, fun h => h.of_eq rfl rfl, rfl, rfl, rfl⟩

theorem serveCounters_keeps (payload : List Byte) : Keeps matched s (serveCounters payload s).1 := by
  unfold serveCounters
  split
  · exact .of_eq rfl rfl rfl rfl rfl rfl
  all_goals exact .refl s

theorem Retained.found_holds (m : Retained) (intact : Bool) : (m.found intact).holds = m.holds :=
  congrArg RetainedCopy.holds (m.found_toRetainedCopy intact)

theorem serveDiagnose_keeps (seen : Findings) : Keeps matched s (serveDiagnose seen s).1 := by
  unfold serveDiagnose
  dsimp only
  split <;> exact .of_eq rfl rfl rfl (Retained.found_holds ..) rfl rfl

theorem servePortSet_keeps (item : Item) (payload : List Byte) : Keeps matched s (servePortSet item payload s).1 := by
  unfold servePortSet
  split
  · exact .refl s
  · split
    · exact .refl s
    · exact (Steady.setPort ..).keeps

theorem serveConfigStart_keeps (op : StoreOp) : Keeps matched s (serveConfigStart op s).1 := by
  unfold serveConfigStart
  split_ifs
  · exact .refl s
  · exact .refl s
  · exact .of_eq rfl rfl rfl rfl rfl rfl

theorem serveClearDeck_keeps : Keeps matched s (serveClearDeck s).1 := by
  unfold serveClearDeck
  split_ifs
  · exact .refl s
  · exact .refl s
  · refine Keeps.steady ?_ (.rewrite _)
    exact .deriveMode (v := s.clearLive) ⟨rfl, rfl, rfl, rfl⟩ (.keepLine _)

/-! ### Every request -/

/-- A read leaves the state as it is. -/
theorem Keeps.of_read (h : u = s) : Keeps matched s u := by
  rw [h]
  exact .refl s

theorem serveRequest_keeps (granted : matched → s.GrantsMatch) (r : Request) (p : Port) (item : Item)
    (payload : List Byte) (seen : Findings) : Keeps matched s (serveRequest r p item payload seen s).1 := by
  cases r with
  | deckSummary => exact .refl s
  | jackRead => exact .of_read (by simp only [serveRequest, serveJackRead]; split <;> rfl)
  | sectorRead => exact .of_read (by simp only [serveRequest, serveSectorRead]; split <;> rfl)
  | layerRead => exact .of_read (by simp only [serveRequest, serveLayerRead]; split <;> [rfl; split <;> rfl])
  | probeRead => exact .of_read (by simp only [serveRequest, serveProbeRead]; split <;> rfl)
  | planRead =>
    exact .of_read (by simp only [serveRequest, servePlanRead, servePlanReadState]; split <;> [rfl; split <;> rfl])
  | identity => exact .refl s
  | strokeDemand => exact serveStrokeDemand_keeps p payload
  | strokeReport => exact serveStrokeReport_keeps p payload
  | strokeCancel => exact serveStrokeCancel_keeps granted p payload
  | stationView => exact .of_read (by simp only [serveRequest, serveStationView]; split <;> [rfl; split <;> rfl])
  | layerPlaced => exact serveLayerPlaced_keeps item payload
  | feedAdvice => exact .refl s
  | layerWithdraw => exact serveLayerWithdraw_keeps item
  | holdPlace => exact serveHoldPlace_keeps p payload
  | holdRelease => exact serveHoldRelease_keeps p payload
  | holdList => exact .of_read (by simp only [serveRequest, serveHoldList]; split <;> rfl)
  | modeSet => exact serveModeSet_keeps payload
  | survey => exact serveSurvey_keeps item payload
  | rodExtend => exact serveRodExtend_keeps item payload
  | jackSet => exact serveJackSet_keeps item payload
  | jackDefine => exact serveJackDefineAny_keeps item payload
  | sectorDefine => exact serveSectorDefineAny_keeps item payload
  | sectorBase => exact serveSectorBase_keeps item payload
  | planStage => exact servePlanStage_keeps item payload
  | planApply => exact servePlanApply_keeps
  | silence => exact (Steady.silenced s).keeps
  | configSave => exact .of_eq rfl rfl rfl rfl rfl rfl
  | configLoad => exact serveConfigStart_keeps .load
  | configFactory => exact serveConfigStart_keeps .factory
  | clearDeck => exact serveClearDeck_keeps
  | restart => exact .of_eq rfl rfl rfl rfl rfl rfl
  | diagnose => exact serveDiagnose_keeps seen
  | counters => exact serveCounters_keeps payload
  | portSet => exact servePortSet_keeps item payload

end Sys2Proof.Machine
end

section
/-! SUPPORT. Every event keeps the hold set legal, the sounder within its cycle and the mode in step with the deck, and either
drives the outputs at its end or touches nothing that they follow (R106, R114, R125, R127, R156). -/

namespace Sys2Proof.Machine

variable {matched : Prop} {s t u : State} {p : Port}

/-! ### The ends of events -/

/-- What an event leaves: the outputs driven, or nothing touched that they follow. -/
inductive Event (matched : Prop) (s : State) : State → Prop
  | driven {u : State} (kept : Keeps matched s u) : Event matched s u.settle
  | still (ports : Vector PortRec 4) (holdLow holdTimer : Bool) (retained : Retained) (resetLow : Bool)
      (pending : List Instr) (copy : retained.holds = s.retained.holds) :
      Event matched s
        { s with
          ports := ports, holdLow := holdLow, holdTimer := holdTimer, retained := retained, resetLow := resetLow
          pending := pending }

theorem Event.refl (s : State) : Event matched s s := .still _ _ _ _ _ _ rfl

theorem Event.keeps (h : Event matched s t) : Keeps matched s t := by
  cases h with
  | driven kept => exact kept.steady (.settle _)
  | still ports holdLow holdTimer retained resetLow pending copy => exact .of_eq rfl rfl rfl copy rfl rfl

/-- The contacts and the sounder follow their conditions after the event when they did before it. -/
theorem Event.outputsFollow (h : Event matched s t) (permits : s.PermitsFollow) (sounder : s.SounderFollows) :
    t.PermitsFollow ∧ t.SounderFollows := by
  cases h with
  | @driven u kept => exact ⟨u.settle_permitsFollow, u.settle_sounderFollows (kept.cycle sounder.2.2)⟩
  | still => exact ⟨permits, sounder⟩

theorem Keeps.event (h : Keeps matched s t) (same : u = t.settle) : Event matched s u := by
  rw [same]
  exact .driven h

theorem whenRunning_event {f : State → State} (h : whenRunning s f = .next t) (kept : Keeps matched s (f s)) :
    Event matched s t := by
  rcases whenRunning_cases s h with ⟨_, e⟩ | ⟨_, rfl⟩
  · exact kept.event e
  · exact .refl _

/-! ### Frames and bytes (R143 to R149) -/

theorem Keeps.takeFrame (granted : matched → s.GrantsMatch) (p : Port) (code : Byte) (item : Item) (payload : List Byte)
    (seen : Findings) : Keeps matched s (s.takeFrame p code item payload seen) := by
  have good : Keeps matched s (s.goodFrame p) := (Steady.goodFrame s p).keeps
  unfold State.takeFrame
  split
  · rw [State.take_cases]
    split_ifs
    · exact good.steady (.respond ..)
    · exact good.steady (.respond ..)
    · refine good.trans <| (serveRequest_keeps (fun m => ?_) ..).steady (.respond ..)
      exact (granted m).goodFrame p
  · exact good.steady (.respond ..)

theorem Steady.checkFail (s : State) (p : Port) (code : Byte) (formed : Nat) : Steady s (s.checkFail p code formed) :=
  (Steady.setPort ..).trans (.setPort ..)

theorem Steady.gapDiscard (s : State) (p : Port) (r : Receiver) : Steady s (s.gapDiscard p r) :=
  (Steady.setPort ..).trans (.setPort ..)

theorem Keeps.onFrame {n : Nat} {judge : State → State}
    (judged : Keeps matched s (judge (s.setReceiver p .listening))) : Keeps matched s (s.onFrame p n judge) := by
  unfold State.onFrame
  split
  · exact .refl s
  · split
    · exact (Steady.lengthDiscard s p).keeps
    · exact (Steady.overrunDiscard s p).keeps
  all_goals
    split
    · exact (Steady.lengthDiscard s p).keeps
    · exact judged

/-- A good frame on a port that hears. -/
theorem Keeps.heardFrame (granted : matched → s.GrantsMatch) (p : Port) (code : Byte) (item : Item) (payload : List Byte)
    (seen : Findings) : Keeps matched s ((s.setReceiver p .listening).takeFrame p code item payload seen) := by
  refine (Steady.setPort s p _).keeps.trans (Keeps.takeFrame ?_ ..)
  exact granted

theorem Keeps.completeFrame (granted : matched → s.GrantsMatch) (p : Port) (frame : List Byte) (seen : Findings) :
    Keeps matched s (s.completeFrame p frame seen) := by
  unfold State.completeFrame
  refine .onFrame ?_
  split
  · exact .heardFrame granted ..
  · exact ((Steady.setPort ..).trans (.checkFail ..)).keeps

theorem Event.setReceiver (s : State) (p : Port) (r : Receiver) : Event matched s (s.setReceiver p r) :=
  .still _ _ _ _ _ _ rfl

theorem Event.hear (granted : matched → s.GrantsMatch) (p : Port) (b : Byte) (seen : Findings) :
    Event matched s (s.hear p b seen) := by
  unfold State.hear
  split
  · split
    · exact .setReceiver ..
    · exact .refl s
  · unfold State.gather
    split
    · exact .setReceiver ..
    · exact .driven (Steady.lengthDiscard s p).keeps
    · exact .driven (.completeFrame granted ..)
  · split
    · exact .setReceiver ..
    · exact .refl s
  · unfold State.gatherServing
    split
    · exact .setReceiver ..
    · exact .driven (Steady.lengthDiscard s p).keeps
    · exact .driven (Steady.overrunDiscard s p).keeps
  · exact .refl s

/-! ### Store requests and stops (R168 to R170) -/

theorem Keeps.endSave (s : State) (c : Configuration) (serial : Nat) (good : Bool) :
    Keeps matched s (s.endSave c serial good) := by
  unfold State.endSave
  dsimp only
  split
  all_goals
    refine Keeps.steady ?_ (.respond ..)
    exact .of_eq rfl rfl rfl rfl rfl rfl

/-- A configuration that replaces the one in use: the mode is derived again at its end (R169). -/
theorem Keeps.adopt (s : State) (c : Configuration) : Keeps matched s (s.adopt c) := by
  have records : s.replaceConfiguration c = (s.replaceRecords c).setSpeeds c.speeds := rfl
  have same : SameFace s (s.replaceRecords c) := by
    rw [State.replaceRecords]
    exact ⟨rfl, rfl, rfl, rfl⟩
  unfold State.adopt
  rw [records]
  exact (Keeps.deriveMode same <| (Steady.setSpeeds ..).trans <| (Steady.refreshAll _).trans <|
    (Steady.retireSectors ..).trans (.placeExposed _)).steady (.commit _)

theorem Keeps.endLoad (s : State) (intact : Bool) : Keeps matched s (s.endLoad intact) := by
  unfold State.endLoad
  split
  · refine Keeps.steady ?_ (.respond ..)
    refine Keeps.trans ?_ (.adopt ..)
    exact .of_eq rfl rfl rfl rfl rfl rfl
  · refine Keeps.steady ?_ (.respond ..)
    exact .of_eq rfl rfl rfl rfl rfl rfl

theorem Keeps.endFactory (s : State) : Keeps matched s s.endFactory := by
  unfold State.endFactory
  refine Keeps.steady ?_ (.respond ..)
  refine Keeps.trans ?_ (.adopt ..)
  exact .of_eq rfl rfl rfl rfl rfl rfl

theorem Event.halt (s : State) (ph : Phase) : Event matched s (s.halt ph) := by
  refine .driven ?_
  rcases s.abortStore_cases with e | e <;> rw [e] <;> exact .of_eq rfl rfl rfl rfl rfl rfl

theorem Keeps.answerLeft (s : State) (p : Port) : Keeps matched s (s.answerLeft p) := by
  have opened : Keeps matched s (s.reopen p) := (Steady.setPort ..).keeps
  unfold State.answerLeft
  split
  · split
    · unfold State.afterConsole
      split
      · exact opened
      · exact opened.trans (Event.halt ..).keeps
      · exact opened.trans (Event.halt ..).keeps
    · exact opened
  all_goals exact .refl s

/-! ### Timers and lines (R47, R55, R124 to R126) -/

theorem Steady.matureDeck (s : State) : Steady s s.matureDeck :=
  (Steady.interval ..).trans <| (Steady.stamp _).trans (.rewrite _)

/-- The filtered state of a level of the HOLD line (R125). -/
def filtered (low : Bool) : FilterState := if low then .asserted else .negated

/-- The LINE entry as it is placed at an assertion. -/
def State.lineHold (s : State) : Hold := ⟨.line, .line, .none, s.retained.counter⟩

/-- The hold set after the filter has decided: the LINE entry joins at an assertion and leaves at a negation (R125). -/
def State.decidedHolds (s : State) : List Hold :=
  if s.holdLow then
    if s.holdFilter = .asserted then s.holds else s.holds ++ [s.lineHold]
  else s.holds.filter fun h => h.reason != .line

theorem filter_not_line_eq_self (lacks : s.hasReason .line = false) :
    (s.holds.filter fun h => h.reason != .line) = s.holds := by
  refine List.filter_eq_self.mpr fun x hx => bne_iff_ne.mpr fun line => ?_
  simp [State.hasReason_iff.mpr ⟨x, hx, line⟩] at lacks

/-- While the LINE entry stands exactly when the filter is ASSERTED, an expiry decides the filter and the entry by the level
alone. -/
theorem State.decideLine_eq (line : s.hasReason .line = true ↔ s.holdFilter = .asserted) :
    s.decideLine =
      { s with holdTimer := false, holdFilter := filtered s.holdLow, holds := s.decidedHolds } := by
  have lacks : s.holdFilter ≠ .asserted → s.hasReason .line = false := fun other => by simpa using mt line.mp other
  have placed : ∀ t : State, t.holds = s.holds → s.hasReason .line = false →
      t.placePart .line .line .none = { t with holds := t.holds ++ [⟨.line, .line, .none, t.clock⟩] } := by
    intro t holds none
    rcases t.placePart_cases .line .line .none with ⟨has, _⟩ | ⟨_, e⟩
    · rw [State.hasReason, holds] at has
      exact absurd has (by simpa [State.hasReason] using none)
    · exact e
  unfold State.decideLine State.decidedHolds
  dsimp only
  cases filter : s.holdFilter <;> cases low : s.holdLow
  case asserted.true => rfl
  case asserted.false => rfl
  case undecided.true => exact placed _ rfl (lacks (by simp [filter]))
  case negated.true => exact placed _ rfl (lacks (by simp [filter]))
  case undecided.false =>
    simp only [Bool.false_eq_true, if_false, filter_not_line_eq_self (lacks (by simp [filter]))]
    rfl
  case negated.false =>
    simp only [Bool.false_eq_true, if_false, filter_not_line_eq_self (lacks (by simp [filter]))]
    rfl

/-- Whatever the filter was, an expiry touches its timer, its state and the hold set alone. -/
theorem State.decideLine_frame (s : State) : ∃ holds,
    s.decideLine = { s with holdTimer := false, holdFilter := filtered s.holdLow, holds := holds } := by
  have placed : ∀ t : State, ∃ holds, t.placePart .line .line .none = { t with holds := holds } := fun t => by
    rcases t.placePart_cases .line .line .none with ⟨_, e⟩ | ⟨_, e⟩ <;> rw [e] <;> exact ⟨_, rfl⟩
  unfold State.decideLine
  dsimp only
  split
  · exact ⟨_, rfl⟩
  · exact ⟨_, rfl⟩
  · exact placed _
  · exact placed _
  · exact ⟨_, rfl⟩
  · exact ⟨_, rfl⟩

/-- The LINE entry follows the filter through an expiry of its timer (R125). -/
theorem State.HoldsOk.decideLine (ok : s.HoldsOk) : s.decideLine.HoldsOk := by
  have fit := State.holdsOk_iff.mp ok
  rw [State.holdsOk_iff, State.decideLine_eq fit.line]
  unfold State.decidedHolds
  cases low : s.holdLow with
  | false =>
    exact ⟨fit.legal.sublist List.filter_sublist, fit.kept, by simp [State.hasReason, filtered], fit.others⟩
  | true =>
    by_cases asserted : s.holdFilter = .asserted
    · simp only [if_true, if_pos asserted]
      exact ⟨fit.legal, fit.kept, ⟨fun _ => rfl, fun _ => fit.line.mpr asserted⟩, fit.others⟩
    · simp only [if_true, if_neg asserted]
      have lacks : s.hasReason .line = false := by simpa using mt fit.line.mp asserted
      exact ⟨fit.legal.append_of_lacks lacks rfl rfl, fit.kept, by simp [State.hasReason, State.lineHold, filtered],
        fit.others⟩

theorem Keeps.decideLine (s : State) : Keeps matched s s.decideLine := by
  obtain ⟨holds, e⟩ := s.decideLine_frame
  refine ⟨?_, State.HoldsOk.decideLine, ?_⟩ <;> rw [e]
  · exact id
  · exact fun _ matches' => matches'.of_eq rfl rfl

/-! ### Start-up (R170 to R172) -/

/-- The hold set comes up without LINE and, from retained memory, without CRAWL_LIMIT (R123). -/
theorem State.HoldsFit.rebuildRecords {lined : Prop} (h : s.HoldsFit lined) (c : Configuration) :
    (s.rebuildRecords c).HoldsFit False := by
  rw [State.rebuildRecords]
  refine ⟨h.kept.sublist List.filter_sublist, h.kept, ?_, h.others⟩
  rw [State.hasReason_iff, iff_false]
  rintro ⟨x, hx, line⟩
  exact h.others x (List.mem_filter.mp hx).1 line

theorem State.HoldsFit.loseDeck {lined : Prop} (h : s.HoldsFit lined) (c : Configuration) :
    (s.loseDeck c).HoldsFit False :=
  ⟨holdsLegal_nil, h.kept, by simp [State.hasReason, State.loseDeck, State.clearLive], h.others⟩

theorem Steady.rebuild (s : State) (c : Configuration) : Steady (s.rebuildRecords c) (s.rebuild c) :=
  (Steady.refreshAll _).trans (.retireSectors ..)

theorem Steady.creditOutage (s : State) : Steady s s.creditOutage :=
  (Steady.credit ..).trans <| (Steady.stamp _).trans (.placeExposed _)

/-- The blocks start with the filter undecided, so a set without LINE fits them. -/
theorem State.HoldsFit.startBlocks (h : s.HoldsFit False) (c : Configuration) (battery : Nat) :
    (s.deriveMode.startBlocks c battery).HoldsOk :=
  State.holdsOk_iff.mpr ⟨h.legal, h.kept, h.line.trans ⟨nofun, nofun⟩, h.others⟩

theorem Keeps.startUpFound (s : State) (storeGood retainedGood : Bool) (battery : Nat) :
    Keeps matched s (s.startUpFound storeGood retainedGood battery) := by
  unfold State.startUpFound
  dsimp only
  refine Keeps.steady ⟨fun _ => rfl, fun ok => State.HoldsFit.startBlocks ?_ .., fun _ _ => ?_⟩ (.rewrite _)
  · have fit : State.HoldsFit _ { s with storeBad := !storeGood, retainLost := !retainedGood } :=
      (State.holdsOk_iff.mp ok).of_eq rfl rfl
    split
    · exact ((Steady.rebuild ..).trans (.creditOutage _)).holds (fit.rebuildRecords _)
    · exact fit.loseDeck _
  · exact (State.deriveMode_modeMatches _).of_eq rfl rfl

theorem Keeps.startUp (s : State) (bad retainedIntact storeIntact : Bool) (battery : Nat) :
    Keeps matched s (s.startUp bad retainedIntact storeIntact battery) := by
  unfold State.startUp
  refine Keeps.trans ?_ (.startUpFound ..)
  exact .of_eq rfl rfl rfl rfl rfl rfl

/-! ### Commands -/

theorem execConfigSaveEnd_event {good : Bool} (h : execConfigSaveEnd good s = .next t) : Event matched s t := by
  refine whenRunning_event h ?_
  split
  · exact .endSave ..
  all_goals exact .refl s

theorem execConfigLoadEnd_event {intact : Bool} (h : execConfigLoadEnd intact s = .next t) : Event matched s t := by
  refine whenRunning_event h ?_
  split
  · exact .endLoad ..
  all_goals exact .refl s

theorem execConfigFactoryEnd_event (h : execConfigFactoryEnd s = .next t) : Event matched s t := by
  refine whenRunning_event h ?_
  split
  · exact .endFactory s
  all_goals exact .refl s

theorem execFrameOverrunDiscard_event (h : execFrameOverrunDiscard p s = .next t) : Event matched s t := by
  refine whenRunning_event h ?_
  split
  · exact (Steady.overrunDiscard s p).keeps
  all_goals exact .refl s

theorem execGapTimerExpiry_event (h : execGapTimerExpiry p s = .next t) : Event matched s t := by
  refine whenRunning_event h ?_
  split
  · exact (Steady.gapDiscard ..).keeps
  · exact (Steady.gapDiscard ..).keeps
  all_goals exact .refl s

theorem execAliveTimerExpiry_event (h : execAliveTimerExpiry p s = .next t) : Event matched s t := by
  refine whenRunning_event h ?_
  split
  · exact (Steady.setAlive ..).keeps
  · exact .refl s

theorem execGrantExpiry_event {j : JackIx} (granted : matched → s.GrantsMatch) (h : execGrantExpiry j s = .next t) :
    Event matched s t := by
  refine whenRunning_event h ?_
  split
  · next due => exact .expire granted due
  · exact .refl s

theorem execProbeSampleExpiry_event {samples : Vector Int 12} {battery : Nat}
    (h : execProbeSampleExpiry samples battery s = .next t) : Event matched s t := by
  refine whenRunning_event h ?_
  split
  · exact .of_eq rfl rfl rfl rfl rfl rfl
  · exact .refl s

theorem execMaturityIntervalExpiry_event (h : execMaturityIntervalExpiry s = .next t) : Event matched s t := by
  refine whenRunning_event h ?_
  split
  · exact (Steady.matureDeck s).keeps
  · exact .refl s

theorem execHoldFilterExpiry_event (h : execHoldFilterExpiry s = .next t) : Event matched s t := by
  refine whenRunning_event h ?_
  split
  · exact .decideLine s
  · exact .refl s

theorem execFrameCheckFail_event {code : Byte} {item : Item} {payload : List Byte}
    (h : execFrameCheckFail p code item payload s = .next t) : Event matched s t :=
  whenRunning_event h (.onFrame ((Steady.setPort ..).trans (.checkFail ..)).keeps)

theorem execFrameLengthDiscard_event (h : execFrameLengthDiscard p s = .next t) : Event matched s t :=
  whenRunning_event h (Steady.lengthDiscard s p).keeps

theorem execAnswerSent_event (h : execAnswerSent p s = .next t) : Event matched s t :=
  whenRunning_event h (.answerLeft s p)

theorem execDeckClockAdvance_event (h : execDeckClockAdvance s = .next t) : Event matched s t := by
  cases h
  exact .still _ _ _ _ _ _ rfl

theorem execByteReceived_event {b : Byte} {seen : Findings} (granted : matched → s.GrantsMatch)
    (h : execByteReceived p b seen s = .next t) : Event matched s t := by
  cases h
  split
  · exact .hear granted ..
  · exact .refl s

theorem execHoldLineChange_event {low : Bool} (h : execHoldLineChange low s = .next t) : Event matched s t := by
  cases h
  dsimp only
  split <;> exact .still _ _ _ _ _ _ rfl

theorem execPowerOn_event (h : execPowerOn s = .next t) : Event matched s t := by
  unfold execPowerOn at h
  split at h <;> cases h
  · split <;> exact .halt ..
  all_goals exact .refl _

/-- The RESET line takes a level, and the module stops or not. -/
theorem Event.resetThenHalt (s : State) (low : Bool) (ph : Phase) : Event matched s ({ s with resetLow := low }.halt ph) := by
  refine .driven ?_
  rcases State.abortStore_cases { s with resetLow := low } with e | e <;> rw [e] <;>
    exact .of_eq rfl rfl rfl rfl rfl rfl

theorem execResetLineLow_event (h : execResetLineLow s = .next t) : Event matched s t := by
  dsimp only [execResetLineLow] at h
  split at h <;> cases h
  · exact .still _ _ _ _ _ _ rfl
  all_goals exact .resetThenHalt ..

theorem execResetLineHigh_event (h : execResetLineHigh s = .next t) : Event matched s t := by
  dsimp only [execResetLineHigh] at h
  split at h <;> cases h
  · exact .resetThenHalt ..
  all_goals exact .still _ _ _ _ _ _ rfl

theorem execStartUpSequence_event {retainedIntact storeIntact : Bool} {battery : Nat}
    (h : execStartUpSequence retainedIntact storeIntact battery s = .next t) : Event matched s t := by
  unfold execStartUpSequence at h
  split at h <;> cases h
  · exact .driven (.startUp ..)
  all_goals exact .refl _

theorem execRunMarkBreak_event (h : execRunMarkBreak s = .next t) : Event matched s t := by
  cases h
  split
  · exact .still _ _ _ _ _ _ rfl
  · exact .refl s

theorem exec_event {c : Instr} (granted : matched → s.GrantsMatch) (h : exec c s = .next t) : Event matched s t := by
  cases row : frame? (seenBy c) c with
  | some f =>
    rcases exec_of_frame row s with e | e <;> rw [e] at h
    · cases h
      exact .refl s
    · exact whenRunning_event h (.onFrame (.heardFrame granted ..))
  | none =>
    cases c with
    | configSaveEnd good => exact execConfigSaveEnd_event h
    | configLoadEnd intact => exact execConfigLoadEnd_event h
    | configFactoryEnd => exact execConfigFactoryEnd_event h
    | frameCheckFail p code item payload => exact execFrameCheckFail_event h
    | frameLengthDiscard p => exact execFrameLengthDiscard_event h
    | frameOverrunDiscard p => exact execFrameOverrunDiscard_event h
    | gapTimerExpiry p => exact execGapTimerExpiry_event h
    | answerSent p => exact execAnswerSent_event h
    | aliveTimerExpiry p => exact execAliveTimerExpiry_event h
    | grantExpiry j => exact execGrantExpiry_event granted h
    | probeSampleExpiry samples battery => exact execProbeSampleExpiry_event h
    | maturityIntervalExpiry => exact execMaturityIntervalExpiry_event h
    | holdLineChange low => exact execHoldLineChange_event h
    | holdFilterExpiry => exact execHoldFilterExpiry_event h
    | deckClockAdvance => exact execDeckClockAdvance_event h
    | powerOn => exact execPowerOn_event h
    | powerFail => cases h; exact .halt ..
    | resetLineLow => exact execResetLineLow_event h
    | resetLineHigh => exact execResetLineHigh_event h
    | runMarkBreak => exact execRunMarkBreak_event h
    | startUpSequence retainedIntact storeIntact battery => exact execStartUpSequence_event h
    | byteReceived p b seen => exact execByteReceived_event granted h
    | diagnose p item payload seen => simp [frame?, seenBy] at row
    | _ => cases row

end Sys2Proof.Machine
end

section
/-! SUPPORT. The sounder's conditions, their selection and a PERMIT contact (R127, R156, section 9.1). -/

namespace Sys2Proof.Machine

variable {s t : State} {active muted : Conditions}

/-! ### Selection (R156, R159) -/

/-- Whether a condition is in a set. -/
def Conditions.has (x : Conditions) : Condition → Bool
  | .held => x.held
  | .level => x.level
  | .lag => x.lag
  | .stall => x.stall
  | .probe => x.probe

/-- The conditions, the highest first (section 9.1). -/
def Condition.inOrder : List Condition := [.held, .level, .lag, .stall, .probe]

theorem Condition.mem_inOrder (c : Condition) : c ∈ Condition.inOrder := by cases c <;> decide

theorem Condition.inOrder_pairwise : Condition.inOrder.Pairwise fun c d => c.priority < d.priority := by decide

theorem Condition.priority_injective {c d : Condition} (h : c.priority = d.priority) : c = d := by
  cases c <;> cases d <;> first | rfl | cases h

/-- The selection is the first condition in order that is true and not muted. -/
theorem Conditions.select_eq_find? :
    active.select muted = Condition.inOrder.find? fun c => active.has c && !muted.has c := by
  unfold Conditions.select Condition.inOrder
  simp only [List.find?_cons, List.find?_nil, Conditions.has]
  split_ifs <;> simp [*]

theorem Conditions.select_eq_none_iff :
    active.select muted = none ↔ ∀ c, active.has c = true → muted.has c = true := by
  simp [Conditions.select_eq_find?, List.find?_eq_none, Condition.mem_inOrder]

/-- What is selected is true, not muted, and of the highest priority among those. -/
theorem Conditions.of_select {c : Condition} (h : active.select muted = some c) :
    (active.has c = true ∧ muted.has c = false) ∧
      ∀ d, active.has d = true → muted.has d = false → c.priority ≤ d.priority := by
  rw [Conditions.select_eq_find?, List.find?_eq_some_iff_append] at h
  obtain ⟨sounds, above, below, order, silent⟩ := h
  refine ⟨by simpa using sounds, fun d on open' => ?_⟩
  have apart := Condition.inOrder_pairwise
  have listed := Condition.mem_inOrder d
  rw [order] at apart listed
  rcases List.mem_append.mp listed with higher | lower
  · simpa [on, open'] using silent d higher
  · rcases List.mem_cons.mp lower with rfl | lower
    · exact Nat.le_refl _
    · exact (List.rel_of_pairwise_cons (List.pairwise_append.mp apart).2.1 lower).le

theorem Conditions.select_eq_some_iff {c : Condition} :
    active.select muted = some c ↔ active.has c = true ∧ muted.has c = false ∧
      ∀ d, active.has d = true → muted.has d = false → c.priority ≤ d.priority := by
  constructor
  · intro h
    obtain ⟨⟨on, open'⟩, first⟩ := Conditions.of_select h
    exact ⟨on, open', first⟩
  · rintro ⟨on, open', first⟩
    cases selected : active.select muted with
    | none => simp [Conditions.select_eq_none_iff.mp selected c on] at open'
    | some d =>
      obtain ⟨⟨on', open''⟩, first'⟩ := Conditions.of_select selected
      rw [Condition.priority_injective (Nat.le_antisymm (first' c on open') (first d on' open''))]

theorem Conditions.has_inter (a b : Conditions) (c : Condition) : (a.inter b).has c = (a.has c && b.has c) := by
  cases c <;> rfl

/-! ### The conditions (section 9.1) -/

theorem State.levelAlert_iff : s.levelAlert = true ↔ ∃ d, s.spread = some d ∧ s.active.tol + s.active.lalm < d := by
  unfold State.levelAlert
  cases s.spread <;> simp

theorem State.anyStall_iff :
    s.anyStall = true ↔ ∃ j, (s.jack j).live.state = .stalled ∨ (s.jack j).live.state = .slip := by
  simp only [State.anyStall, any_toList_iff, Bool.or_eq_true, beq_iff_eq]
  exact Iff.rfl

theorem State.probeCondition_iff : s.probeCondition = true ↔ ∃ n, (s.probe n).state = .fault := by
  simp only [State.probeCondition, any_toList_iff, beq_iff_eq]
  exact Iff.rfl

/-- A station port is alive while its timer runs (R126). -/
def State.aliveTimer (s : State) : Station → Option Nat
  | .A => s.aliveA
  | .B => s.aliveB

theorem State.permitOn_iff (st : Station) : s.permitOn st = true ↔
    s.phase = .running ∧ (s.mode = .rise ∨ s.mode = .crawl) ∧ s.holds = [] ∧ s.aliveTimer st ≠ none := by
  cases st <;>
    simp [State.permitOn, State.alive, State.aliveTimer, Mode.moving_iff, and_assoc, Option.isSome_iff_ne_none]

/-! ### The outputs through a step -/

/-- An idle millisecond moves the pattern's position alone, within its cycle (R157). -/
theorem Sounder.advance_eq (o : Sounder) : ∃ ms, o.advance = ⟨o.playing, ms, o.muted⟩ ∧
    (o.inCycle = true → o.advance.inCycle = true) := by
  obtain ⟨playing, position, muted⟩ := o
  cases playing with
  | none => exact ⟨position, rfl, id⟩
  | some c => exact ⟨_, rfl, fun _ => decide_eq_true (Nat.mod_lt _ (by cases c <;> decide))⟩

theorem State.SounderFollows.idle (h : s.SounderFollows) : s.idle.SounderFollows := by
  obtain ⟨plays, mutes, cycle⟩ := h
  obtain ⟨ms, position, stays⟩ := s.sounder.advance_eq
  refine ⟨?_, ?_, stays cycle⟩
  · show s.sounder.advance.playing = if s.phase = .running then s.conditions.select s.sounder.advance.muted else none
    rw [position]
    exact plays
  · show s.sounder.advance.muted.inter s.conditions = s.sounder.advance.muted
    rw [position]
    exact mutes

theorem Keeps.idle {matched : Prop} (s : State) : Keeps matched s s.idle := by
  obtain ⟨ms, _, stays⟩ := s.sounder.advance_eq
  exact ⟨stays, id, fun _ => id⟩

/-- Taking a command from the queue is part of its event. -/
theorem Event.of_queue {matched : Prop} {rest : List Instr} (h : Event matched { s with pending := rest } t) :
    Event matched s t := by
  cases h with
  | driven kept =>
    refine .driven (Keeps.trans ?_ kept)
    exact .of_eq rfl rfl rfl rfl rfl rfl
  | still ports holdLow holdTimer retained resetLow pending copy => exact .still _ _ _ _ _ _ copy

/-- A step is an idle millisecond, or an event on the state with the queue's rest. -/
theorem step_event {matched : Prop} (granted : matched → s.GrantsMatch) (h : step s = .next t) :
    t = s.idle ∨ Event matched s t := by
  unfold step at h
  split at h
  · cases h
    exact .inl rfl
  · next rest _ => exact .inr (exec_event (s := { s with pending := rest }) granted h).of_queue

theorem step_keeps (h : step s = .next t) : Keeps s.GrantsMatch s t := by
  rcases step_event id h with rfl | event
  · exact .idle s
  · exact event.keeps

end Sys2Proof.Machine

open Sys2Proof Sys2Proof.Machine

/-- Settles O53: every event drives the outputs at its end or touches nothing that they follow. -/
theorem outputsFollowEveryStep : Obligations.OutputsFollowEveryStep := by
  refine ⟨⟨fun _ _ _ => Conditions.select_eq_some_iff, fun _ _ => Conditions.select_eq_none_iff, Conditions.has_inter⟩,
    fun s => ⟨?_, State.levelAlert_iff, ?_, State.anyStall_iff, State.probeCondition_iff, fun st => ?_, rfl⟩,
    fun _ _ _ => rfl, ?_⟩
  · simp [State.conditions]
  · simp [State.conditions, State.anyLag]
  · exact (State.permitOn_iff st)
  · intro s t permits sounder run
    rcases step_event (matched := False) False.elim run with rfl | event
    · exact ⟨permits, sounder.idle⟩
    · exact event.outputsFollow permits sounder

/-- Settles O54: every event leaves the mode and the deck's completeness alone, or derives the mode at its end. -/
theorem modeMatchesEveryStep : Obligations.ModeMatchesEveryStep := by
  refine ⟨fun s => ⟨?_, rfl, ?_⟩, ?_⟩
  · simpa only [Sector.unbased_iff] using State.incomplete_iff
  · unfold State.passMode
    simp only [Mode.moving_iff]
  · exact fun s t matches' _ granted run => (step_keeps run).mode granted matches'

/-- Settles O56: what joins the set is of a reason or a link source that leaves it legal, and LINE moves with the filter. -/
theorem holdSetStaysLegal : Obligations.HoldSetStaysLegal := fun _ _ legal run => (step_keeps run).holds legal

end

section
/-! SUPPORT. MODE SET (R108, R109): what each action does to the deck. -/

namespace Sys2Proof.Machine

variable {s u : State} {item : Item}

@[simp] theorem State.withLink_leaveFor (s : State) (l : Link) (m : Mode) :
    (s.withLink l).leaveFor m = (s.leaveFor m).withLink l := by
  unfold State.leaveFor
  rw [s.withLink_mode]
  split <;> rfl

theorem serveModeSet_linkBlind (payload : List Byte) : LinkBlind (serveModeSet payload) := by
  intro s l
  unfold serveModeSet
  split
  · refine ite_withLink Iff.rfl rfl ?_
    rw [State.withLink_leaveFor]
    rfl
  · rw [s.withLink_mode, s.withLink_hMin]
    cases s.mode with
    | survey | crawl => rfl
    | ready | rise => cases s.hMin <;> rfl
  · refine ite_withLink Iff.rfl rfl ?_
    rw [State.withLink_leaveFor]
    rfl
  · rfl

theorem modeSet_answers {action : Byte} {reply : Reply} {a : Answer} (hears : s.Hears .console)
    (served : serveModeSet [action] s = (u, reply)) (answer : reply.answer? 0x50 = some a) :
    Answered (.modeSet .console item [action]) .console a s u :=
  request_answers (serveModeSet_linkBlind [action]) hears rfl rfl served answer

/-! ### The table of R109 -/

theorem serveModeSet_bad_action {action : Byte} (h : action = 0 ∨ 3 < action.toNat) :
    serveModeSet [action] s = (s, .refuse .range 1) := by
  have listed : action.toNat ≠ 1 ∧ action.toNat ≠ 2 ∧ action.toNat ≠ 3 := by
    rcases h with rfl | h
    · decide
    · omega
  obtain ⟨rise, crawl, stop⟩ := listed
  have read : u8At [action] 0 = action.toNat := rfl
  unfold serveModeSet
  rw [read]
  split
  · next e => exact absurd e rise
  · next e => exact absurd e crawl
  · next e => exact absurd e stop
  · rfl

/-- What leaving a mode makes of the hold set: only CRAWL has its own entry taken out. -/
theorem State.leaveFor_eq (s : State) (m : Mode) : s.leaveFor m =
    { s with mode := m, holds := if s.mode = .crawl then s.holds.filter fun h => h.reason != .crawlLimit else s.holds } := by
  unfold State.leaveFor
  dsimp only
  split <;> rfl

theorem serveModeSet_rise (from_ : s.mode ≠ .survey) :
    serveModeSet [1] s = ((s.leaveFor .rise).commit, .accept (modeAnswer (s.leaveFor .rise))) := if_neg from_

theorem serveModeSet_stop (from_ : s.mode ≠ .survey) :
    serveModeSet [3] s = ((s.leaveFor .ready).commit, .accept (modeAnswer (s.leaveFor .ready))) := if_neg from_

theorem serveModeSet_crawl (from_ : s.mode = .ready ∨ s.mode = .rise) :
    serveModeSet [2] s = match s.hMin with
      | none => (s, .refuse .state 1)
      | some m => ((s.enterCrawl m).commit, .accept (modeAnswer (s.enterCrawl m))) := by
  have read : u8At [2] 0 = 2 := rfl
  unfold serveModeSet
  rw [read]
  rcases from_ with mode | mode <;> rw [mode] <;> rfl

theorem serveModeSet_crawl_again (from_ : s.mode = .crawl) :
    serveModeSet [2] s = (s, .accept (modeAnswer s)) := by
  have read : u8At [2] 0 = 2 := rfl
  unfold serveModeSet
  rw [read, from_]
  rfl

theorem serveModeSet_survey (from_ : s.mode = .survey) :
    serveModeSet [1] s = (s, .refuse .mode 0) ∧ serveModeSet [2] s = (s, .refuse .mode 0) ∧
      serveModeSet [3] s = (s, .accept (modeAnswer s)) := by
  refine ⟨if_pos from_, ?_, if_pos from_⟩
  have read : u8At [2] 0 = 2 := rfl
  unfold serveModeSet
  rw [read, from_]
  rfl

end Sys2Proof.Machine

open Sys2Proof Sys2Proof.Machine

/-- Settles O38: each action's row of R109, by the mode it finds. -/
theorem modeSetMovesTheDeck : Obligations.ModeSetMovesTheDeck := by
  refine ⟨fun s item action hears bad => modeSet_answers hears (serveModeSet_bad_action bad) rfl,
    fun s item hears => ⟨fun from_ => ?_, fun m from_ lowest => ?_, fun from_ unset => ?_, fun from_ => ?_,
      fun from_ => ?_, fun from_ => ?_⟩⟩
  · have served := serveModeSet_rise from_
    rw [State.leaveFor_eq] at served
    exact modeSet_answers hears served rfl
  · have served := serveModeSet_crawl from_
    rw [lowest] at served
    exact modeSet_answers hears served rfl
  · have served := serveModeSet_crawl from_
    rw [unset] at served
    exact modeSet_answers hears served rfl
  · have served := serveModeSet_crawl_again from_
    rw [modeAnswer, from_] at served
    exact modeSet_answers hears served rfl
  · have served := serveModeSet_stop from_
    rw [State.leaveFor_eq] at served
    exact modeSet_answers hears served rfl
  · obtain ⟨rise, crawl, stop⟩ := serveModeSet_survey from_
    rw [modeAnswer, from_] at stop
    exact ⟨modeSet_answers hears rise rfl, modeSet_answers hears crawl rfl, modeSet_answers hears stop rfl⟩

end

section
/-! SUPPORT. The HOLD line, its filter timer and the alive timers (R124 to R127). -/

namespace Sys2Proof.Machine

variable {s u : State}

/-- While the module runs, only a change of the line's level starts the filter timer (R124). -/
theorem execHoldLineChange_running (running : s.phase = .running) (low : Bool) :
    execHoldLineChange low s = .next { s with holdLow := low, holdTimer := s.holdTimer || (low != s.holdLow) } := by
  dsimp only [execHoldLineChange]
  by_cases same : s.holdLow = low
  · have still : (low != s.holdLow) = false := by simp [same]
    rw [if_neg (fun h => h.2 same), still, Bool.or_false]
  · have changed : (low != s.holdLow) = true := by simpa using Ne.symm same
    rw [if_pos ⟨running, same⟩, changed, Bool.or_true]

/-- What a row that acts while the module runs leaves is what its rule makes. -/
theorem leaves_of_whenRunning {c : Instr} {f : State → State} (row : exec c s = whenRunning s f)
    (running : s.phase = .running) (makes : f s = u) : Leaves c s u := by
  rw [Leaves, row, whenRunning_running s running, makes]

/-- The alive timer of a station port leaves the port not alive (R126). -/
theorem aliveTimerExpiry_leaves_silent (running : s.phase = .running) {p : Port} {st : Station}
    (serves : p.station? = some st) : Leaves (.aliveTimerExpiry p) s (s.setAlive st none) :=
  leaves_of_whenRunning (execAliveTimerExpiry.eq_def p s) running (by rw [serves])

/-- A port that serves no station has no alive timer. -/
theorem aliveTimerExpiry_leaves_same (running : s.phase = .running) {p : Port} (other : p.station? = none) :
    Leaves (.aliveTimerExpiry p) s s :=
  leaves_of_whenRunning (execAliveTimerExpiry.eq_def p s) running (by rw [other])

/-- A port that is not alive has an open contact (R127). -/
theorem State.permitOn_of_not_alive {st : Station} (silent : s.aliveTimer st = none) : s.permitOn st = false :=
  Bool.eq_false_iff.mpr fun on =>
    have ⟨_, _, _, alive⟩ := s.permitOn_iff st |>.mp on
    alive silent

end Sys2Proof.Machine

open Sys2Proof Sys2Proof.Machine

/-- Settles O40: the filter's decision is `State.decideLine_eq`; a port whose timer has run out is not alive. -/
theorem lineAndAliveTimersAct : Obligations.LineAndAliveTimersAct := by
  intro s running
  refine ⟨execHoldLineChange_running running, fun timer line => ?_,
    aliveTimerExpiry_leaves_silent (st := .A) running rfl, aliveTimerExpiry_leaves_silent (st := .B) running rfl,
    State.permitOn_of_not_alive rfl, State.permitOn_of_not_alive rfl⟩
  exact leaves_of_whenRunning rfl running ((if_pos timer).trans (State.decideLine_eq line))

end

section
/-! SUPPORT. HOLD PLACE and HOLD RELEASE (R114 to R120): what the bytes name, and what naming an entry does. -/

namespace Sys2Proof.Machine

/-! ### Sources, reasons and qualifiers by their codes (R115, R117) -/

theorem HoldSource.ofCode?_eq_some_iff {n : Nat} {source : HoldSource} :
    HoldSource.ofCode? n = some source ↔ source.code = n := by
  constructor
  · intro named
    unfold HoldSource.ofCode? at named
    split at named <;> cases named <;> rfl
  · rintro rfl
    cases source <;> rfl

theorem HoldSource.ofCode?_eq_none {n : Nat} (high : 5 < n) : HoldSource.ofCode? n = none := by
  refine Option.eq_none_iff_forall_ne_some.mpr fun source named => ?_
  have code := HoldSource.ofCode?_eq_some_iff.mp named
  cases source <;> cases code <;> exact absurd high (by decide)

theorem HoldSource.exists_ofCode? {n : Nat} (low : n ≤ 5) : ∃ source, HoldSource.ofCode? n = some source := by
  interval_cases n <;> exact ⟨_, rfl⟩

theorem HoldSource.isLink_iff {source : HoldSource} : source.isLink = true ↔ source ≠ .line ∧ source ≠ .part := by
  cases source <;> decide

theorem HoldReason.external?_eq_some_iff {n : Nat} {r : HoldReason} :
    HoldReason.external? n = some r ↔ r.code = n ∧ n ≤ 6 := by
  constructor
  · intro named
    unfold HoldReason.external? at named
    split at named <;> cases named <;> exact ⟨rfl, by decide⟩
  · rintro ⟨rfl, low⟩
    cases r with
    | operator | pump | feed | inspection | weather | other => rfl
    | line | exposed | ungrantedMove | crawlLimit => exact absurd low (by decide)

theorem HoldReason.ofCode?_eq_some_iff {n : Nat} {r : HoldReason} :
    HoldReason.ofCode? n = some r ↔ r.code = n := by
  constructor
  · intro named
    unfold HoldReason.ofCode? at named
    split at named
    · cases named; rfl
    · cases named; rfl
    · cases named; rfl
    · cases named; rfl
    · exact (HoldReason.external?_eq_some_iff.mp named).1
  · rintro rfl
    cases r <;> rfl

/-- The codes of the reasons that a request may place. -/
theorem HoldReason.exists_external?_iff {n : Nat} : (∃ r, HoldReason.external? n = some r) ↔ 1 ≤ n ∧ n ≤ 6 := by
  constructor
  · rintro ⟨r, named⟩
    obtain ⟨rfl, low⟩ := HoldReason.external?_eq_some_iff.mp named
    exact ⟨by cases r <;> decide, low⟩
  · rintro ⟨low, high⟩
    interval_cases n <;> exact ⟨_, rfl⟩

/-- The codes of all reasons. -/
theorem HoldReason.exists_ofCode?_iff {n : Nat} :
    (∃ r, HoldReason.ofCode? n = some r) ↔ (1 ≤ n ∧ n ≤ 6) ∨ 16 ≤ n ∧ n ≤ 19 := by
  constructor
  · rintro ⟨r, named⟩
    obtain rfl := HoldReason.ofCode?_eq_some_iff.mp named
    cases r <;> decide
  · rintro (⟨low, high⟩ | ⟨low, high⟩) <;> interval_cases n <;> exact ⟨_, rfl⟩

theorem index?_eq_some_iff {n k : Nat} {i : Fin n} : index? n k = some i ↔ i.val = k := by
  constructor
  · intro named
    unfold index? at named
    split at named <;> cases named
    rfl
  · exact fun at_ => index?_eq_some at_.symm

theorem Qualifier.ofCodes?_eq_some_iff {kind ix : Nat} {q : Qualifier} :
    Qualifier.ofCodes? kind ix = some q ↔ q.kindCode = kind ∧ (kind = 0 ∨ q.indexCode = ix) := by
  constructor
  · intro named
    unfold Qualifier.ofCodes? at named
    split at named
    · cases named
      exact ⟨rfl, .inl rfl⟩
    · obtain ⟨j, at_, rfl⟩ := Option.map_eq_some_iff.mp named
      exact ⟨rfl, .inr (index?_eq_some_iff.mp at_)⟩
    · obtain ⟨k, at_, rfl⟩ := Option.map_eq_some_iff.mp named
      exact ⟨rfl, .inr (index?_eq_some_iff.mp at_)⟩
    · cases named
  · rintro ⟨rfl, at_⟩
    cases q with
    | none => rfl
    | jack j =>
      have at_ : j.val = ix := at_.resolve_left nofun
      exact congrArg (Option.map Qualifier.jack) (index?_eq_some_iff.mpr at_)
    | sector k =>
      have at_ : k.val = ix := at_.resolve_left nofun
      exact congrArg (Option.map Qualifier.sector) (index?_eq_some_iff.mpr at_)

/-! ### The fields of a hold request, in order (R117, R119) -/

variable {reason : Option HoldReason} {kind ix first : Nat} {r : HoldReason} {q : Qualifier}

theorem parseHold_bad_reason (bad : ¬ ∃ r, reason = some r) : parseHold reason kind ix first = .inl first := by
  cases reason with
  | none => rfl
  | some r => exact absurd ⟨r, rfl⟩ bad

theorem parseHold_bad_kind (known : ∃ r, reason = some r) (high : 2 < kind) :
    parseHold reason kind ix first = .inl (first + 1) := by
  obtain ⟨r, rfl⟩ := known
  exact if_pos high

theorem parseHold_bad_index (known : ∃ r, reason = some r) {kind ix : Byte}
    (bad : kind = 1 ∧ 96 ≤ ix.toNat ∨ kind = 2 ∧ 24 ≤ ix.toNat) :
    parseHold reason kind.toNat ix.toNat first = .inl (first + 2) := by
  obtain ⟨r, rfl⟩ := known
  have low : ¬ 2 < kind.toNat := by rcases bad with ⟨rfl, _⟩ | ⟨rfl, _⟩ <;> decide
  have none : Qualifier.ofCodes? kind.toNat ix.toNat = none := by
    rcases bad with ⟨rfl, high⟩ | ⟨rfl, high⟩
    · exact congrArg (Option.map Qualifier.jack) (index?_eq_none high)
    · exact congrArg (Option.map Qualifier.sector) (index?_eq_none high)
  simp only [parseHold, if_neg low, none]

theorem parseHold_named (known : reason = some r) (named : Qualifier.ofCodes? kind ix = some q) :
    parseHold reason kind ix first = .inr (r, q) := by
  subst known
  have low : ¬ 2 < kind := by
    rw [← (Qualifier.ofCodes?_eq_some_iff.mp named).1]
    cases q <;> simp [Qualifier.kindCode]
  simp only [parseHold, if_neg low, named]

/-! ### The entry that is named -/

variable {source : HoldSource} {holds older newer : List Hold} {h : Hold}

theorem Hold.names_iff : h.names source r q = true ↔ h.source = source ∧ h.reason = r ∧ h.qualifier = q := by
  simp [Hold.names, and_assoc]

theorem Hold.names_eq_false (other : ¬ (h.source = source ∧ h.reason = r ∧ h.qualifier = q)) :
    h.names source r q = false :=
  Bool.eq_false_iff.mpr (mt Hold.names_iff.mp other)

theorem findIdx?_names_absent (absent : ∀ h ∈ holds, ¬ (h.source = source ∧ h.reason = r ∧ h.qualifier = q)) :
    (holds.findIdx? fun h => h.names source r q) = none :=
  List.findIdx?_eq_none_iff.mpr fun h hm => Hold.names_eq_false (absent h hm)

theorem any_names_absent (absent : ∀ h ∈ holds, ¬ (h.source = source ∧ h.reason = r ∧ h.qualifier = q)) :
    (holds.any fun h => h.names source r q) = false :=
  List.any_eq_false.mpr fun h hm => by simpa using Hold.names_eq_false (absent h hm)

/-! A set cut at the first entry that is named. -/

section Cut

variable (hit : h.source = source ∧ h.reason = r ∧ h.qualifier = q)
  (absent : ∀ g ∈ older, ¬ (g.source = source ∧ g.reason = r ∧ g.qualifier = q))
include hit

theorem any_names_cut : ((older ++ h :: newer).any fun h => h.names source r q) = true := by
  simp [Hold.names_iff.mpr hit]

include absent

theorem findIdx?_names_cut : ((older ++ h :: newer).findIdx? fun h => h.names source r q) = some older.length := by
  rw [List.findIdx?_append, findIdx?_names_absent absent, List.findIdx?_cons, Hold.names_iff.mpr hit]
  simp

theorem eraseP_names_cut : ((older ++ h :: newer).eraseP fun h => h.names source r q) = older ++ newer := by
  rw [List.eraseP_append_right _ fun g hg => by simpa using Hold.names_eq_false (absent g hg),
    List.eraseP_cons_of_pos (by simpa using Hold.names_iff.mpr hit)]

end Cut

/-! ### HOLD PLACE (R117, R118) -/

variable {s u : State} {p : Port} {item : Item} {payload : List Byte} {reply : Reply} {a : Answer} {field : Nat}

theorem serveHoldPlace_linkBlind (p : Port) (payload : List Byte) : LinkBlind (serveHoldPlace p payload) := by
  intro s l
  unfold serveHoldPlace
  split
  · rfl
  · next r q _ =>
    have set : (s.withLink l).holds = s.holds := rfl
    rw [set]
    cases s.holds.findIdx? fun h => h.names p.source r q with
    | some i => rfl
    | none => exact ite_withLink Iff.rfl rfl rfl

theorem holdPlace_answers (hears : s.Hears p) (length : payload.length = 3)
    (served : serveHoldPlace p payload s = (u, reply)) (answer : reply.answer? 0x40 = some a) :
    Answered (.holdPlace p item payload) p a s u :=
  request_answers (serveHoldPlace_linkBlind p payload) hears rfl (by rw [length]; rfl) served answer

theorem serveHoldPlace_bad
    (bad : parseHold (HoldReason.external? (u8At payload 0)) (u8At payload 1) (u8At payload 2) 1 = .inl field) :
    serveHoldPlace p payload s = (s, .refuse .range field) := by
  rw [serveHoldPlace, bad]

section Place

variable
  (named : parseHold (HoldReason.external? (u8At payload 0)) (u8At payload 1) (u8At payload 2) 1 = .inr (r, q))
include named

theorem serveHoldPlace_full (absent : ∀ h ∈ s.holds, ¬ (h.source = p.source ∧ h.reason = r ∧ h.qualifier = q))
    (full : 12 ≤ s.linkHolds) : serveHoldPlace p payload s = (s, .refuse .full 3) := by
  simp only [serveHoldPlace, named, findIdx?_names_absent absent, if_pos full]

/-- A new entry goes to the end of the set, with the deck second (R118). -/
theorem serveHoldPlace_new (absent : ∀ h ∈ s.holds, ¬ (h.source = p.source ∧ h.reason = r ∧ h.qualifier = q))
    (room : s.linkHolds < 12) : serveHoldPlace p payload s =
      ({ s with holds := s.holds ++ [(⟨p.source, r, q, s.retained.counter⟩ : Hold)] }.commit,
        .accept (be1 0 ++ be1 s.holds.length ++ be1 (s.holds.length + 1) ++ be1 (s.linkHolds + 1))) := by
  have length : (s.pushHold p.source r q).commit.holds.length = s.holds.length + 1 :=
    List.length_append (bs := [_])
  have links : (s.pushHold p.source r q).commit.linkHolds = s.linkHolds + 1 := by
    simp [State.linkHolds, State.commit, State.pushHold, List.filter_append, source_isLink p]
  simp only [serveHoldPlace, named, findIdx?_names_absent absent, if_neg (Nat.not_le.mpr room), placeAnswer, length,
    links]
  rfl

theorem serveHoldPlace_present (cut : s.holds = older ++ h :: newer)
    (hit : h.source = p.source ∧ h.reason = r ∧ h.qualifier = q)
    (absent : ∀ g ∈ older, ¬ (g.source = p.source ∧ g.reason = r ∧ g.qualifier = q)) :
    serveHoldPlace p payload s =
      (s, .accept (be1 1 ++ be1 older.length ++ be1 s.holds.length ++ be1 s.linkHolds)) := by
  have found : (s.holds.findIdx? fun h => h.names p.source r q) = some older.length := by
    rw [cut, findIdx?_names_cut hit absent]
  simp only [serveHoldPlace, named, found]
  rfl

end Place

/-! ### HOLD RELEASE (R119, R120) -/

theorem serveHoldRelease_linkBlind (p : Port) (payload : List Byte) : LinkBlind (serveHoldRelease p payload) := by
  intro s l
  unfold serveHoldRelease
  split
  · rfl
  · split
    · rfl
    · exact ite_withLink Iff.rfl rfl (ite_withLink Iff.rfl rfl (ite_withLink Iff.rfl rfl rfl))

theorem holdRelease_answers (hears : s.Hears p) (length : payload.length = 4)
    (served : serveHoldRelease p payload s = (u, reply)) (answer : reply.answer? 0x41 = some a) :
    Answered (.holdRelease p item payload) p a s u :=
  request_answers (serveHoldRelease_linkBlind p payload) hears rfl (by rw [length]; rfl) served answer

theorem serveHoldRelease_bad_source (bad : HoldSource.ofCode? (u8At payload 0) = none) :
    serveHoldRelease p payload s = (s, .refuse .range 1) := by
  rw [serveHoldRelease, bad]

/-- Who may release an entry of a source: its own port, and the console all but LINE (R119). -/
theorem Port.mayRelease_iff : Port.mayRelease p source = true ↔ source = p.source ∨ p = .console ∧ source ≠ .line := by
  simp [Port.mayRelease]

theorem State.anyExposed_iff : s.anyExposed = true ↔ ∃ k, s.exposed k = true := by
  simp [State.anyExposed]

section Release

variable (from_ : HoldSource.ofCode? (u8At payload 0) = some source)
include from_

theorem serveHoldRelease_bad
    (bad : parseHold (HoldReason.ofCode? (u8At payload 1)) (u8At payload 2) (u8At payload 3) 2 = .inl field) :
    serveHoldRelease p payload s = (s, .refuse .range field) := by
  simp only [serveHoldRelease, from_, bad]

variable (named : parseHold (HoldReason.ofCode? (u8At payload 1)) (u8At payload 2) (u8At payload 3) 2 = .inr (r, q))
include named

theorem serveHoldRelease_absent (absent : ∀ h ∈ s.holds, ¬ (h.source = source ∧ h.reason = r ∧ h.qualifier = q)) :
    serveHoldRelease p payload s = (s, .refuse .state 1) := by
  simp only [serveHoldRelease, from_, named, any_names_absent absent]
  rfl

variable (cut : s.holds = older ++ h :: newer) (hit : h.source = source ∧ h.reason = r ∧ h.qualifier = q)
include cut hit

theorem serveHoldRelease_foreign (foreign : ¬ (source = p.source ∨ p = .console ∧ source ≠ .line)) :
    serveHoldRelease p payload s = (s, .refuse .state 2) := by
  have may : Port.mayRelease p source = false := Bool.eq_false_iff.mpr (mt Port.mayRelease_iff.mp foreign)
  simp only [serveHoldRelease, from_, named, cut, any_names_cut hit, may]
  rfl

variable (own : source = p.source ∨ p = .console ∧ source ≠ .line)
include own

theorem serveHoldRelease_exposed (reason : r = .exposed) (exposed : ∃ k, s.exposed k = true) :
    serveHoldRelease p payload s = (s, .refuse .state 3) := by
  have shown : r = .exposed ∧ s.anyExposed = true := ⟨reason, State.anyExposed_iff.mpr exposed⟩
  simp only [serveHoldRelease, from_, named, if_pos shown]
  simp only [cut, any_names_cut hit, Port.mayRelease_iff.mpr own]
  rfl

/-- A released entry leaves the set and the others keep their order (R120). -/
theorem serveHoldRelease_left (absent : ∀ g ∈ older, ¬ (g.source = source ∧ g.reason = r ∧ g.qualifier = q))
    (covered : r = .exposed → ∀ k, s.exposed k = false) :
    serveHoldRelease p payload s =
      ({ s with holds := older ++ newer }.commit,
        .accept (be1 (older ++ newer).length ++ be1 ((older ++ newer).filter fun h => h.source.isLink).length)) := by
  have clear : ¬ (r = .exposed ∧ s.anyExposed = true) := by
    rintro ⟨reason, any⟩
    obtain ⟨k, exposed⟩ := State.anyExposed_iff.mp any
    exact absurd exposed (by simp [covered reason k])
  have removed : s.removeHold source r q = { s with holds := older ++ newer } := by
    rw [State.removeHold, cut, eraseP_names_cut hit absent]
  simp only [serveHoldRelease, from_, named, removed, if_neg clear]
  simp only [cut, any_names_cut hit, Port.mayRelease_iff.mpr own]
  rfl

end Release

end Sys2Proof.Machine

open Sys2Proof Sys2Proof.Machine

/-- Settles O39: a code names by its table, the first bad field decides, and an entry is edited where it is found. -/
theorem holdRequestsEditTheSet : Obligations.HoldRequestsEditTheSet := by
  refine ⟨fun _ _ => HoldSource.ofCode?_eq_some_iff,
    fun _ _ => ⟨HoldReason.ofCode?_eq_some_iff, HoldReason.external?_eq_some_iff⟩,
    fun _ _ _ => Qualifier.ofCodes?_eq_some_iff, fun _ => HoldSource.isLink_iff, rfl, ?_, ?_⟩
  · intro p item s from_ reason kind ix hears
    refine ⟨fun other => ?_, fun external high => ?_, fun external bad => ?_, fun r q external named absent full => ?_,
      fun high => ?_, fun low other => ?_, fun low known high => ?_, fun low known bad => ?_,
      fun source r q origin known named absent => ?_⟩
    · exact holdPlace_answers hears rfl (serveHoldPlace_bad
        (parseHold_bad_reason (mt HoldReason.exists_external?_iff.mp other))) rfl
    · exact holdPlace_answers hears rfl (serveHoldPlace_bad
        (parseHold_bad_kind (HoldReason.exists_external?_iff.mpr external) high)) rfl
    · exact holdPlace_answers hears rfl (serveHoldPlace_bad
        (parseHold_bad_index (HoldReason.exists_external?_iff.mpr external) bad)) rfl
    · exact holdPlace_answers hears rfl (serveHoldPlace_full (parseHold_named external named) absent full) rfl
    · exact holdRelease_answers hears rfl (serveHoldRelease_bad_source (HoldSource.ofCode?_eq_none high)) rfl
    · obtain ⟨_, origin⟩ := HoldSource.exists_ofCode? low
      exact holdRelease_answers hears rfl (serveHoldRelease_bad origin
        (parseHold_bad_reason (mt HoldReason.exists_ofCode?_iff.mp other))) rfl
    · obtain ⟨_, origin⟩ := HoldSource.exists_ofCode? low
      exact holdRelease_answers hears rfl (serveHoldRelease_bad origin
        (parseHold_bad_kind (HoldReason.exists_ofCode?_iff.mpr known) high)) rfl
    · obtain ⟨_, origin⟩ := HoldSource.exists_ofCode? low
      exact holdRelease_answers hears rfl (serveHoldRelease_bad origin
        (parseHold_bad_index (HoldReason.exists_ofCode?_iff.mpr known) bad)) rfl
    · exact holdRelease_answers hears rfl (serveHoldRelease_absent origin (parseHold_named known named) absent) rfl
  · intro p item s reason kind ix r q hears qualifier
    refine ⟨fun external => ⟨fun absent room => ?_, fun older newer h cut hit absent => ?_⟩,
      fun from_ source older newer h origin known cut hit absent =>
        ⟨fun own covered => ?_, fun other foreign => ?_, fun own exposedReason exposed => ?_⟩⟩
    · exact holdPlace_answers hears rfl (serveHoldPlace_new (parseHold_named external qualifier) absent room) rfl
    · exact holdPlace_answers hears rfl (serveHoldPlace_present (parseHold_named external qualifier) cut hit absent) rfl
    · exact holdRelease_answers hears rfl
        (serveHoldRelease_left origin (parseHold_named known qualifier) cut hit own absent covered) rfl
    · have refused : ¬ (source = p.source ∨ p = .console ∧ source ≠ .line) := by tauto
      exact holdRelease_answers hears rfl
        (serveHoldRelease_foreign origin (parseHold_named known qualifier) cut hit refused) rfl
    · exact holdRelease_answers hears rfl
        (serveHoldRelease_exposed origin (parseHold_named known qualifier) cut hit own exposedReason exposed) rfl

end

section
/-! SUPPORT. Power, reset, restart, the run mark and the deck clock (R165, R166, R168, R170), and the events that no phase
or no state of the deck answers. -/

namespace Sys2Proof.Machine

variable {s : State} {p : Port} {c : Instr}

/-! ### Halting -/

/-- The store as an event that ends a store request leaves it: only a save in progress spoils it (R168). -/
def State.abortedStore (s : State) : Store :=
  match s.storeOp with
  | some (.save _ _) => s.store.spoil
  | _ => s.store

theorem State.abortStore_eq (s : State) : s.abortStore = { s with storeOp := none, store := s.abortedStore } := by
  unfold State.abortStore State.abortedStore
  split
  · next saving => rw [saving]
  · next loading => rw [loading]
  · next factory => rw [factory]
  · next idle =>
    simp only [idle]
    rw [← idle]

/-- Outside the running phase the contacts are open and the sounder is silent (R127, R156). -/
theorem State.settle_stopped (stopped : s.phase ≠ .running) : s.settle =
    { s with
      permitA := false, permitB := false
      sounder :=
        ⟨none, if s.sounder.playing = none then s.sounder.positionMs else 0, s.sounder.muted.inter s.conditions⟩ } := by
  have shut : ∀ st, s.permitOn st = false := fun st =>
    Bool.eq_false_iff.mpr fun on => stopped (s.permitOn_iff st |>.mp on).1
  have off : decide (s.phase = .running) = false := decide_eq_false stopped
  simp only [State.settle, shut, Sounder.reselect, off, eq_comm (a := s.sounder.playing)]
  rfl

/-- The state in which an event leaves a module that it halts. -/
def State.haltedAt (s : State) (ph : Phase) : State :=
  { s with
    phase := ph, afterAnswer := .nothing, storeOp := none, store := s.abortedStore
    permitA := false, permitB := false
    sounder :=
      ⟨none, if s.sounder.playing = none then s.sounder.positionMs else 0, s.sounder.muted.inter s.conditions⟩ }

theorem State.halt_eq {ph : Phase} (stopped : ph ≠ .running) : s.halt ph = s.haltedAt ph := by
  rw [State.halt, State.settle_stopped stopped, State.abortStore_eq]
  rfl

/-! ### Supply, RESET line and run mark, by phase -/

theorem execPowerOn_off (off : s.phase = .off) :
    execPowerOn s = .next (s.haltedAt (if s.resetLow then .inReset else .starting false)) := by
  unfold execPowerOn
  rw [off, State.halt_eq (ph := .inReset) nofun, State.halt_eq (ph := .starting false) nofun]
  cases s.resetLow <;> rfl

theorem execPowerOn_on (on : s.phase ≠ .off) : execPowerOn s = .next s := by
  unfold execPowerOn
  split
  · next off => exact absurd off on
  all_goals rfl

theorem execResetLineLow_off (off : s.phase = .off) : execResetLineLow s = .next { s with resetLow := true } := by
  unfold execResetLineLow
  rw [off]

theorem execResetLineLow_on (on : s.phase ≠ .off) :
    execResetLineLow s = .next ({ s with resetLow := true }.haltedAt .inReset) := by
  rw [← State.halt_eq (ph := .inReset) nofun]
  unfold execResetLineLow
  dsimp only
  split
  · next off => exact absurd off on
  all_goals rfl

theorem execResetLineHigh_inReset (held : s.phase = .inReset) :
    execResetLineHigh s = .next ({ s with resetLow := false }.haltedAt (.starting false)) := by
  rw [← State.halt_eq (ph := .starting false) nofun]
  unfold execResetLineHigh
  rw [held]

theorem execResetLineHigh_other (other : s.phase ≠ .inReset) :
    execResetLineHigh s = .next { s with resetLow := false } := by
  unfold execResetLineHigh
  dsimp only
  split
  · next held => exact absurd held other
  all_goals rfl

theorem serveRestart_linkBlind : LinkBlind serveRestart := fun _ _ => rfl

/-! ### What no event does outside its phase (log entries 9 and 15) -/

theorem execStartUpSequence_other (other : ∀ found, s.phase ≠ .starting found) (retained store : Bool) (battery : Nat) :
    execStartUpSequence retained store battery s = .next s := by
  unfold execStartUpSequence
  split
  · next found starting => exact absurd starting (other found)
  all_goals rfl

theorem execHoldLineChange_stopped (stopped : s.phase ≠ .running) (low : Bool) :
    execHoldLineChange low s = .next { s with holdLow := low } :=
  congrArg _ (if_neg fun h => stopped h.1)

/-- Frames, bytes, timers and the ends of store requests are taken while the module runs, and only then. -/
theorem exec_stopped (stopped : s.phase ≠ .running)
    (other : c ∉ [.deckClockAdvance, .powerOn, .powerFail, .resetLineLow, .resetLineHigh, .runMarkBreak])
    (line : ∀ low, c ≠ .holdLineChange low) (starts : ∀ retained store battery, c ≠ .startUpSequence retained store battery) :
    exec c s = .next s := by
  cases row : frame? (seenBy c) c with
  | some f =>
    rcases exec_of_frame row s with e | e
    · exact e
    · rw [e, whenRunning_stopped s stopped]
  | none =>
    cases c with
    | configSaveEnd _ | configLoadEnd _ | configFactoryEnd => exact congrArg _ (if_neg stopped)
    | frameCheckFail _ _ _ _ | frameLengthDiscard _ | frameOverrunDiscard _ => exact congrArg _ (if_neg stopped)
    | gapTimerExpiry _ | answerSent _ | aliveTimerExpiry _ | byteReceived _ _ _ => exact congrArg _ (if_neg stopped)
    | grantExpiry _ | probeSampleExpiry _ _ | maturityIntervalExpiry => exact congrArg _ (if_neg stopped)
    | holdFilterExpiry => exact congrArg _ (if_neg stopped)
    | holdLineChange low => exact absurd rfl (line low)
    | startUpSequence retained store battery => exact absurd rfl (starts retained store battery)
    | deckClockAdvance | powerOn | powerFail | resetLineLow | resetLineHigh | runMarkBreak =>
      exact absurd (by decide) other
    | diagnose p item payload seen => simp [frame?, seenBy] at row
    | _ => cases row

/-! ### What a running module does not meet (log entry 8) -/

theorem gapTimerExpiry_leaves_same (running : s.phase = .running)
    (idle : (s.port p).receiver = .listening ∨ (s.port p).receiver = .serving [] ∨
      ∃ a, (s.port p).receiver = .answering a) :
    Leaves (.gapTimerExpiry p) s s := by
  refine leaves_of_whenRunning (execGapTimerExpiry.eq_def p s) running ?_
  rcases idle with e | e | ⟨a, e⟩ <;> rw [e]

theorem answerSent_leaves_same (running : s.phase = .running) (other : ∀ a, (s.port p).receiver ≠ .answering a) :
    Leaves (.answerSent p) s s := by
  refine leaves_of_whenRunning (execAnswerSent.eq_def p s) running ?_
  unfold State.answerLeft
  split
  · next a answering => exact absurd answering (other a)
  all_goals rfl

theorem frameOverrunDiscard_leaves_same (running : s.phase = .running)
    (other : ∀ partly, (s.port p).receiver ≠ .serving partly) : Leaves (.frameOverrunDiscard p) s s := by
  refine leaves_of_whenRunning (execFrameOverrunDiscard.eq_def p s) running ?_
  split
  · next partly serving => exact absurd serving (other partly)
  all_goals rfl

theorem grantExpiry_leaves_same (running : s.phase = .running) {j : JackIx} (none : s.grant? j = none) :
    Leaves (.grantExpiry j) s s :=
  leaves_of_whenRunning (execGrantExpiry.eq_def j s) running (if_neg (by simp [State.grantDue, none]))

theorem configSaveEnd_leaves_same (running : s.phase = .running)
    (other : ∀ snapshot serial, s.storeOp ≠ some (.save snapshot serial)) (good : Bool) :
    Leaves (.configSaveEnd good) s s := by
  refine leaves_of_whenRunning (execConfigSaveEnd.eq_def good s) running ?_
  split
  · next snapshot serial saving => exact absurd saving (other snapshot serial)
  all_goals rfl

theorem configLoadEnd_leaves_same (running : s.phase = .running) (other : s.storeOp ≠ some .load) (intact : Bool) :
    Leaves (.configLoadEnd intact) s s := by
  refine leaves_of_whenRunning (execConfigLoadEnd.eq_def intact s) running ?_
  split
  · next loading => exact absurd loading other
  all_goals rfl

theorem configFactoryEnd_leaves_same (running : s.phase = .running) (other : s.storeOp ≠ some .factory) :
    Leaves .configFactoryEnd s s := by
  refine leaves_of_whenRunning (execConfigFactoryEnd.eq_def s) running ?_
  split
  · next factory => exact absurd factory other
  all_goals rfl

/-- A known code is no frame of an unknown one. -/
theorem execUnknownRequestCode_known {code : Byte} (known : Request.ofCode? code ≠ none) (item : Item)
    (payload : List Byte) : execUnknownRequestCode p code item payload s = .next s := by
  unfold execUnknownRequestCode
  split
  · rfl
  · next unknown => exact absurd unknown known

end Sys2Proof.Machine

open Sys2Proof Sys2Proof.Machine

/-- Settles O50: each event by the phase it finds; `State.halt_eq` says what the events that stop the module leave. -/
theorem powerResetAndClockAct : Obligations.PowerResetAndClockAct := by
  intro s
  refine ⟨congrArg _ (State.halt_eq (ph := .off) nofun), execResetLineLow_on, execResetLineLow_off, execResetLineHigh_inReset,
    execResetLineHigh_other, fun off => ⟨execPowerOn_off off, congrArg _ (if_pos off)⟩, rfl,
    fun item hears => request_answers serveRestart_linkBlind hears rfl rfl rfl rfl,
    fun stopped => ⟨execHoldLineChange_stopped stopped, fun c => exec_stopped stopped⟩,
    fun on => ⟨execPowerOn_on on, congrArg _ (if_neg on)⟩,
    fun retained store battery other => execStartUpSequence_other other retained store battery, fun running => ?_,
    fun p code item payload known => execUnknownRequestCode_known known item payload⟩
  refine ⟨fun p idle => ⟨?_, ?_⟩, fun p a answering => ⟨?_, ?_⟩,
    fun p partly => ⟨fun collecting => ⟨?_, ?_⟩, fun serving => ?_⟩, fun p listening => ?_,
    aliveTimerExpiry_leaves_same running rfl, aliveTimerExpiry_leaves_same running rfl,
    fun j => grantExpiry_leaves_same running, fun off => ?_, fun off samples battery => ?_, fun off => ?_,
    configSaveEnd_leaves_same running, configLoadEnd_leaves_same running, configFactoryEnd_leaves_same running⟩
  · exact gapTimerExpiry_leaves_same running (idle.imp_right .inl)
  · exact answerSent_leaves_same running fun a => by rcases idle with e | e <;> rw [e] <;> nofun
  · exact gapTimerExpiry_leaves_same running (.inr (.inr ⟨a, answering⟩))
  · exact frameOverrunDiscard_leaves_same running fun _ => by rw [answering]; nofun
  · exact answerSent_leaves_same running fun _ => by rw [collecting]; nofun
  · exact frameOverrunDiscard_leaves_same running fun _ => by rw [collecting]; nofun
  · exact answerSent_leaves_same running fun _ => by rw [serving]; nofun
  · exact frameOverrunDiscard_leaves_same running fun _ => by rw [listening]; nofun
  · exact leaves_of_whenRunning (execHoldFilterExpiry.eq_def s) running (if_neg (by simp [off]))
  · exact leaves_of_whenRunning (execProbeSampleExpiry.eq_def samples battery s) running (if_neg (by simp [off]))
  · exact leaves_of_whenRunning (execMaturityIntervalExpiry.eq_def s) running (if_neg (by simp [off]))

end

section
/-! SUPPORT. PLAN STAGE and PLAN APPLY (R131 to R136). -/

namespace Sys2Proof.Machine

variable {s u : State} {item : Item} {payload : List Byte} {reply : Reply} {a : Answer} {n : Param}

/-! ### Staging (R131) -/

theorem Param.ofNumber?_zero : Param.ofNumber? 0 = none := rfl

theorem Plan.get_set (p : Plan) (n : Param) (x : Int) (m : Param) :
    (p.set n x).get m = if m = n then x else p.get m := by
  simp only [Plan.get, Plan.set, Fin.getElem_fin, Vector.getElem_set, Fin.ext_iff, eq_comm]

theorem servePlanStage_linkBlind (item : Item) (payload : List Byte) : LinkBlind (servePlanStage item payload) := by
  intro s l
  unfold servePlanStage
  cases Param.ofNumber? item.toNat with
  | none => rfl
  | some n => exact ite_withLink Iff.rfl rfl rfl

theorem planStage_answers (hears : s.Hears .console) (length : payload.length = 4)
    (served : servePlanStage item payload s = (u, reply)) (answer : reply.answer? 0x57 = some a) :
    Answered (.planStage .console item payload) .console a s u :=
  request_answers (servePlanStage_linkBlind item payload) hears rfl (by rw [length]; rfl) served answer

theorem servePlanStage_bad_item (bad : item.toNat = 0 ∨ 25 < item.toNat) :
    servePlanStage item payload s = (s, .refuse .item item.toNat) := by
  have unknown : Param.ofNumber? item.toNat = none := by
    rcases bad with zero | high
    · rw [zero, Param.ofNumber?_zero]
    · exact Param.ofNumber?_eq_none high
  rw [servePlanStage, unknown]

theorem servePlanStage_out_of_range (number : item.toNat = n.val + 1)
    (out : s32At payload 0 < n.lowest ∨ n.highest < s32At payload 0) :
    servePlanStage item payload s = (s, .refuse .range 1) := by
  rw [servePlanStage, Param.ofNumber?_eq_some number]
  exact if_pos out

theorem servePlanStage_in_range (number : item.toNat = n.val + 1) (low : n.lowest ≤ s32At payload 0)
    (high : s32At payload 0 ≤ n.highest) :
    servePlanStage item payload s =
      ({ s with staged := s.staged.set n (s32At payload 0) },
        .accept (be4i (s32At payload 0) ++ be4i (s.active.get n) ++
          be1 ((s.staged.set n (s32At payload 0)).differences s.active))) := by
  have inside : ¬ (s32At payload 0 < n.lowest ∨ n.highest < s32At payload 0) :=
    not_or.mpr ⟨Int.not_lt.mpr low, Int.not_lt.mpr high⟩
  rw [servePlanStage, Param.ofNumber?_eq_some number]
  exact if_neg inside

/-! ### What an apply hands on (R133, R135, R136) -/

@[simp] theorem State.retireSectors_planSerial (ks : List SectorIx) : (s.retireSectors ks).planSerial = s.planSerial :=
  State.retireSectors_induction (P := fun t => t.planSerial = s.planSerial)
    (fun t k kept => by rcases t.retireSector_cases k with e | ⟨_, _, _, e⟩ <;> rw [e] <;> exact kept) ks s rfl

@[simp] theorem State.planHolds_planSerial : s.planHolds.planSerial = s.planSerial := by
  have exposed : s.placeExposed.planSerial = s.planSerial := by
    rcases s.placeExposed_cases with e | ⟨_, _, _, e⟩ <;> rw [e]
  rw [State.planHolds, ← exposed]
  rcases s.placeExposed.placeCrawlLimit_cases with e | ⟨_, _, e⟩ <;> rw [e]

/-- The deck under a plan taken into use, before anything is handed on (R133). -/
def State.replacePlan (s : State) : State :=
  { s with active := s.staged, planSerial := nextSerial s.planSerial, planRejected := false }

theorem State.applyPlan_same (same : s.staged = s.active) : s.applyPlan = s.replacePlan := if_pos same

theorem State.applyPlan_differs (differs : s.staged ≠ s.active) :
    s.applyPlan = (s.replacePlan.refreshAll.retireSectors (List.finRange 24)).planHolds := if_neg differs

/-- The serial rises by one whether the staged plan differs or not (R133). -/
theorem State.applyPlan_planSerial : s.applyPlan.planSerial = nextSerial s.planSerial := by
  by_cases same : s.staged = s.active
  · rw [State.applyPlan_same same]
    rfl
  · rw [State.applyPlan_differs same, State.planHolds_planSerial, State.retireSectors_planSerial]
    rfl

theorem State.withLink_refreshAll (s : State) (l : Link) : (s.withLink l).refreshAll = s.refreshAll.withLink l := rfl

theorem State.withLink_placeCrawlLimit (s : State) (l : Link) :
    (s.withLink l).placeCrawlLimit = s.placeCrawlLimit.withLink l := by
  have reached : (s.withLink l).crawlReached = s.crawlReached := rfl
  unfold State.placeCrawlLimit
  rw [reached, s.withLink_placePart]
  cases s.crawlReached <;> rfl

theorem State.withLink_planHolds (s : State) (l : Link) : (s.withLink l).planHolds = s.planHolds.withLink l := by
  rw [State.planHolds, State.withLink_placeExposed, State.withLink_placeCrawlLimit, State.planHolds]

theorem State.withLink_applyPlan (s : State) (l : Link) : (s.withLink l).applyPlan = s.applyPlan.withLink l := by
  have replaced : (s.withLink l).replacePlan = s.replacePlan.withLink l := rfl
  by_cases same : s.staged = s.active
  · rw [State.applyPlan_same same, State.applyPlan_same (s := s.withLink l) same, replaced]
  · rw [State.applyPlan_differs same, State.applyPlan_differs (s := s.withLink l) same, replaced,
      State.withLink_refreshAll, State.withLink_retireSectors, State.withLink_planHolds]

/-! ### The answer of an apply (R132, R133) -/

theorem servePlanApply_linkBlind : LinkBlind servePlanApply := by
  intro s l
  refine ite_withLink Iff.rfl rfl ?_
  rw [State.withLink_applyPlan]
  rfl

theorem planApply_answers (hears : s.Hears .console) (served : servePlanApply s = (u, reply))
    (answer : reply.answer? 0x58 = some a) : Answered (.planApply .console item []) .console a s u :=
  request_answers servePlanApply_linkBlind hears rfl rfl served answer

theorem servePlanApply_failed {i : Nat} (failed : s.staged.firstFailed = i + 1) :
    servePlanApply s = ({ s with planRejected := true }, .refuse .state (i + 1)) := by
  rw [servePlanApply, failed, if_pos (Nat.succ_ne_zero i)]

theorem servePlanApply_passed (passed : s.staged.firstFailed = 0) :
    servePlanApply s =
      (s.applyPlan.commit, .accept (be2 (nextSerial s.planSerial) ++ be1 (s.staged.differences s.active) ++
        be1 s.applyPlan.holds.length)) := by
  rw [servePlanApply, if_neg (not_not.mpr passed), ← State.applyPlan_planSerial]
  rfl

end Sys2Proof.Machine

open Sys2Proof Sys2Proof.Machine

/-- Settles O41: by the number of the item, and a value in range is written to the staged field of that number alone. -/
theorem planStageWritesOneField : Obligations.PlanStageWritesOneField := by
  unfold Obligations.PlanStageWritesOneField
  intro s item payload hears length x
  refine ⟨fun bad => ?_, fun n number => ⟨fun low high => ⟨s.staged.set n x, s.staged.get_set n x, ?_⟩, fun out => ?_⟩⟩
  · exact planStage_answers hears length (servePlanStage_bad_item bad) rfl
  · refine planStage_answers hears length (servePlanStage_in_range number low high) ?_
    rw [Plan.differences_eq]
    rfl
  · exact planStage_answers hears length (servePlanStage_out_of_range number out) rfl

/-- Settles O42: the first failed check refuses; a plan that passes is handed on only where it differs (R133). -/
theorem planApplyReplacesThePlan : Obligations.PlanApplyReplacesThePlan := by
  unfold Obligations.PlanApplyReplacesThePlan
  intro s item hears q checks
  have first : q.firstFailed = firstFalse 1 checks := q.firstFailed_eq
  rw [firstFalse_eq_findIdx?] at first
  refine ⟨fun i failed => ?_, fun passed => ?_⟩
  · rw [failed] at first
    exact planApply_answers hears (servePlanApply_failed first) rfl
  · intro serial applied refreshed handed u
    rw [passed] at first
    have deck : s.applyPlan = u := rfl
    rw [← deck]
    refine planApply_answers hears (servePlanApply_passed first) ?_
    rw [Plan.differences_eq]
    rfl

end

section
/-! SUPPORT. The fields of frames and the CRC of R144 (sections 0.5.3 and 8.2): a field read back is the field sent, and
the CRC over bytes and their check is 0. -/

namespace Sys2Proof.Machine

/-! ### Fields sent and read back -/

/-- A 2-byte field is its high byte, then its low byte. -/
theorem u16At_be2 {x : Nat} (low : x < 65536) : u16At (be2 x) 0 = x := by
  simp only [u16At, u8At, be2, List.getD_cons_zero, List.getD_cons_succ, BitVec.toNat_ofNat]
  omega

/-- A 4-byte field is the field of its high half, then that of its low half. -/
theorem be4_eq_be2_append (x : Nat) : be4 x = be2 (x / 65536) ++ be2 (x % 65536) := by
  have byte : ∀ {a b : Nat}, a % 256 = b % 256 → BitVec.ofNat 8 a = BitVec.ofNat 8 b := fun h =>
    BitVec.eq_of_toNat_eq (by simpa using h)
  show [_, _, _, _] = [_, _, _, _]
  rw [byte (a := x / 16777216) (b := x / 65536 / 256) (by omega), byte (a := x / 256) (b := x % 65536 / 256) (by omega),
    byte (a := x) (b := x % 65536) (by omega)]

theorem u32At_be4 {x : Nat} (low : x < 4294967296) : u32At (be4 x) 0 = x := by
  simp only [u32At, u16At, u8At, be4, List.getD_cons_zero, List.getD_cons_succ, BitVec.toNat_ofNat]
  omega

/-- Two's complement in 32 bits keeps the signed values of that width (R151). -/
theorem s32At_be4i {x : Int} (low : -2147483648 ≤ x) (high : x < 2147483648) : s32At (be4i x) 0 = x := by
  have sent : u32At (be4i x) 0 = (x % 4294967296).toNat := u32At_be4 (by omega)
  rw [s32At, sent, BitVec.toInt_ofNat', Int.bmod_def]
  omega

theorem be2i_of_neg {x : Int} (low : -32768 ≤ x) (neg : x < 0) : be2i x = be2 (x + 65536).toNat := by
  rw [be2i]
  congr 2
  omega

/-! ### The check (R144) -/

theorem crcByte_eq_iterate (r : BitVec 16) (b : Byte) : crcByte r b = crcBit^[8] (r ^^^ (b.setWidth 16 <<< 8)) := rfl

/-- A register whose top bit is clear is shifted, and no polynomial is taken off it. -/
theorem crcBit_toNat {r : BitVec 16} (clear : r.toNat < 32768) : (crcBit r).toNat = r.toNat * 2 := by
  have top : r.msb = false := by rw [BitVec.msb_eq_false_iff_two_mul_lt]; omega
  rw [crcBit, top, if_neg Bool.false_ne_true, BitVec.toNat_shiftLeft, Nat.shiftLeft_eq]
  omega

theorem crcBit_iterate_toNat {r : BitVec 16} (k : Nat) (clear : r.toNat * 2 ^ k < 65536) :
    (crcBit^[k] r).toNat = r.toNat * 2 ^ k := by
  induction k with
  | zero => exact (Nat.mul_one _).symm
  | succ k ih =>
    have doubled : r.toNat * 2 ^ (k + 1) = r.toNat * 2 ^ k * 2 := by rw [Nat.pow_succ, Nat.mul_assoc]
    have before := ih (by omega)
    rw [Function.iterate_succ_apply', crcBit_toNat (by omega), before, doubled]

/-- The high byte of the register takes the register's own high half away. -/
theorem xor_high_byte (r : BitVec 16) :
    r ^^^ ((BitVec.ofNat 8 (r.toNat / 256)).setWidth 16 <<< 8) = (BitVec.ofNat 8 r.toNat).setWidth 16 := by
  have high : BitVec.ofNat 8 (r.toNat / 256) = (r >>> 8).setWidth 8 := by
    apply BitVec.eq_of_toNat_eq
    simp [Nat.shiftRight_eq_div_pow]
  have low : BitVec.ofNat 8 r.toNat = r.setWidth 8 := by
    apply BitVec.eq_of_toNat_eq
    simp
  rw [high, low]
  ext i hi
  by_cases h : i < 8
  · simp [h, BitVec.getLsbD_eq_getElem hi]
  · have back : 8 + (i - 8) = i := by omega
    have near : i - 8 < 8 := by omega
    simp [h, back, near, BitVec.getLsbD_eq_getElem hi]

/-- The register's own two bytes, high byte first, clear it. -/
theorem crcByte_crcByte_self (r : BitVec 16) :
    crcByte (crcByte r (BitVec.ofNat 8 (r.toNat / 256))) (BitVec.ofNat 8 r.toNat) = 0 := by
  have small : (BitVec.ofNat 8 r.toNat).toNat < 256 := (BitVec.ofNat 8 r.toNat).isLt
  have wide : ((BitVec.ofNat 8 r.toNat).setWidth 16).toNat = (BitVec.ofNat 8 r.toNat).toNat := by
    rw [BitVec.toNat_setWidth]
    omega
  have first : crcByte r (BitVec.ofNat 8 (r.toNat / 256)) = (BitVec.ofNat 8 r.toNat).setWidth 16 <<< 8 := by
    apply BitVec.eq_of_toNat_eq
    rw [crcByte_eq_iterate, xor_high_byte, crcBit_iterate_toNat 8 (by omega), BitVec.toNat_shiftLeft, Nat.shiftLeft_eq,
      wide]
    omega
  rw [crcByte_eq_iterate, first, BitVec.xor_self]
  rfl

theorem crc16_append_crcBytes (bytes : List Byte) : crc16 (bytes ++ crcBytes bytes) = 0 := by
  rw [crc16, List.foldl_append]
  exact crcByte_crcByte_self (crc16 bytes)

end Sys2Proof.Machine

open Sys2Proof Sys2Proof.Machine

/-- Settles O5: by the bytes of each field, and by the register that its own two bytes clear. -/
theorem fieldsAndCheckAreBigEndian : Obligations.FieldsAndCheckAreBigEndian := by
  unfold Obligations.FieldsAndCheckAreBigEndian
  refine ⟨fun x => ⟨rfl, rfl, rfl, rfl⟩, fun x => rfl, rfl, fun payload i => rfl, fun n k i => index?_eq_some_iff,
    fun x low => ⟨_, _, rfl, ?_, BitVec.toNat_ofNat .., u16At_be2 low⟩,
    fun x low => ⟨be4_eq_be2_append x, u32At_be4 low⟩, fun x => s32At_be4i, fun x => be2i_of_neg, rfl,
    fun bytes => ⟨rfl, crc16_append_crcBytes bytes⟩, fun code item payload => rfl, fun kind code payload => ?_, ?_⟩
  · rw [BitVec.toNat_ofNat]
    omega
  · cases kind <;> rfl
  · simp [crc16, crcByte, crcBit, BitVec.msb]

end

section
/-! SUPPORT. A port's bytes one by one (R143 to R149): what a byte meets by the state of its receiver and by what the
bytes gathered so far make of a frame. -/

namespace Sys2Proof.Machine

variable {s : State} {p : Port} {b : Byte} {seen : Findings} {partly frame : List Byte}

/-! ### What a frame's end leaves in its port -/

/-- A count and the receiver's next state are one write of the port. -/
theorem State.setReceiver_countPort (s : State) (p : Port) (f : PortCounters → PortCounters) (r : Receiver) :
    (s.countPort p f).setReceiver p r =
      s.setPort p { s.port p with receiver := r, counters := f (s.port p).counters } := by
  simp [State.setReceiver, State.countPort, State.port_setPort]

theorem State.lengthDiscard_open (open' : (s.port p).receiver.open = true) :
    s.lengthDiscard p = s.setPort p { s.port p with
      receiver := .listening
      counters := { (s.port p).counters with length := sat16 ((s.port p).counters.length + 1) } } := by
  unfold State.lengthDiscard
  dsimp only
  cases at_ : (s.port p).receiver with
  | listening => exact s.setReceiver_countPort ..
  | collecting _ => exact s.setReceiver_countPort ..
  | answering _ => rw [at_] at open'; cases open'
  | serving _ => rw [at_] at open'; cases open'

theorem State.lengthDiscard_serving (serving : (s.port p).receiver = .serving partly) :
    s.lengthDiscard p = s.setPort p { s.port p with
      receiver := .serving []
      counters := { (s.port p).counters with length := sat16 ((s.port p).counters.length + 1) } } := by
  unfold State.lengthDiscard
  rw [serving]
  exact s.setReceiver_countPort ..

theorem State.checkFail_eq (s : State) (p : Port) (code : Byte) (formed : Nat) :
    s.checkFail p code formed = s.setPort p { s.port p with
      receiver := .answering ⟨.refuse, code, refusal .check formed⟩
      counters := { (s.port p).counters with check := sat16 ((s.port p).counters.check + 1) } } :=
  s.setReceiver_countPort ..

/-- The frame that fails its check has left the receiver, and leaves nothing else behind (R144). -/
theorem State.checkFail_setReceiver (s : State) (p : Port) (r : Receiver) (code : Byte) (formed : Nat) :
    (s.setReceiver p r).checkFail p code formed = s.checkFail p code formed := by
  rw [State.checkFail_eq, State.checkFail_eq, State.setReceiver, State.setPort_setPort, State.port_setPort, if_pos rfl]

/-! ### Fields of the bytes gathered -/

/-- Bytes that follow leave a byte that has come in its place. -/
theorem u8At_append_of_lt {i : Nat} (rest : List Byte) (low : i < partly.length) :
    u8At (partly ++ rest) i = (partly.getD i 0).toNat := by
  rw [u8At, List.getD_append _ _ _ _ low]

theorem u8At_snoc_length (partly : List Byte) (b : Byte) : u8At (partly ++ [b]) partly.length = b.toNat := by
  simp [u8At]

/-- The last two bytes are the big-endian field that they spell. -/
theorem drop_eq_be2 {i : Nat} (length : frame.length = i + 2) : frame.drop i = be2 (u16At frame i) := by
  have bytes : ∀ hi lo : Byte, [hi, lo] = be2 (hi.toNat * 256 + lo.toNat) := by
    intro hi lo
    have low := lo.isLt
    rw [be2]
    congr 1
    · exact BitVec.eq_of_toNat_eq (by rw [BitVec.toNat_ofNat]; omega)
    · exact congrArg (fun x => [x]) (BitVec.eq_of_toNat_eq (by rw [BitVec.toNat_ofNat]; omega))
  have high : i < frame.length := by omega
  have low : i + 1 < frame.length := by omega
  rw [List.drop_eq_getElem_cons high, List.drop_eq_getElem_cons low, List.drop_of_length_le (by omega), bytes, u16At,
    u8At, u8At, List.getD_eq_getElem _ _ high, List.getD_eq_getElem _ _ low]

/-- A received check is the one formed exactly when its two bytes are those of the one formed (R144). -/
theorem u16At_eq_iff {i v : Nat} (length : frame.length = i + 2) (small : v < 65536) :
    u16At frame i = v ↔ frame.drop i = be2 v := by
  rw [drop_eq_be2 length]
  refine ⟨congrArg be2, fun same => ?_⟩
  have range : u16At frame i < 65536 := by
    have hi := (frame.getD i 0).isLt
    have lo := (frame.getD (i + 1) 0).isLt
    simp only [u16At, u8At]
    omega
  rw [← u16At_be2 range, same, u16At_be2 small]

/-! ### What a byte makes of the frame (R143, R147) -/

/-- The byte neither completes the frame nor is a length above 56. -/
def GoesOn (partly : List Byte) (b : Byte) : Prop :=
  partly.length < 4 ∨
    4 < partly.length ∧ (partly.getD 4 0).toNat ≤ 56 ∧ partly.length + 1 < 7 + (partly.getD 4 0).toNat ∨
    partly.length = 4 ∧ b.toNat ≤ 56

theorem gathered_of_goesOn (on : GoesOn partly b) : gathered (partly ++ [b]) = .partly := by
  rw [gathered, List.length_append, List.length_singleton]
  rcases on with short | ⟨long, low, more⟩ | ⟨four, low⟩
  · exact if_pos (by omega)
  · rw [u8At_append_of_lt [b] long, if_neg (by omega), if_neg (by omega), if_pos more]
  · rw [← four, u8At_snoc_length, if_neg (by omega), if_neg (by omega), if_pos (by omega)]

theorem gathered_of_long_length (four : partly.length = 4) (high : 56 < b.toNat) :
    gathered (partly ++ [b]) = .tooLong := by
  rw [gathered, List.length_append, List.length_singleton, ← four, u8At_snoc_length, if_neg (by omega), if_pos high]

theorem gathered_of_last (long : 4 < partly.length) (low : (partly.getD 4 0).toNat ≤ 56)
    (last : partly.length + 1 = 7 + (partly.getD 4 0).toNat) : gathered (partly ++ [b]) = .whole := by
  rw [gathered, List.length_append, List.length_singleton, u8At_append_of_lt [b] long, if_neg (by omega),
    if_neg (by omega), if_neg (by omega)]

/-! ### One byte, by the state of the receiver (R145, R149) -/

theorem exec_byteReceived {t : State} (running : s.phase = .running) (heard : s.hear p b seen = t) :
    exec (.byteReceived p b seen) s = .next t :=
  congrArg _ ((if_pos running).trans heard)

theorem State.hear_listening (listening : (s.port p).receiver = .listening) :
    s.hear p b seen = if b = 0xC5 then s.setReceiver p (.collecting [b]) else s := by
  rw [State.hear, listening]

theorem State.hear_collecting (collecting : (s.port p).receiver = .collecting partly) :
    s.hear p b seen = s.gather p (partly ++ [b]) seen := by
  rw [State.hear, collecting]

theorem State.hear_answering {a : Answer} (answering : (s.port p).receiver = .answering a) : s.hear p b seen = s := by
  rw [State.hear, answering]

theorem State.hear_searching (searching : (s.port p).receiver = .serving []) :
    s.hear p b seen = if b = 0xC5 then s.setReceiver p (.serving [b]) else s := by
  rw [State.hear, searching]

theorem State.hear_serving (serving : (s.port p).receiver = .serving partly) (begun : partly ≠ []) :
    s.hear p b seen = s.gatherServing p (partly ++ [b]) := by
  cases partly with
  | nil => exact absurd rfl begun
  | cons lead rest => rw [State.hear, serving]

theorem State.gather_partly (h : gathered frame = .partly) :
    s.gather p frame seen = s.setReceiver p (.collecting frame) := by
  rw [State.gather, h]

theorem State.gather_tooLong (h : gathered frame = .tooLong) : s.gather p frame seen = (s.lengthDiscard p).settle := by
  rw [State.gather, h]

theorem State.gather_whole (h : gathered frame = .whole) :
    s.gather p frame seen = (s.completeFrame p frame seen).settle := by
  rw [State.gather, h]

theorem State.gatherServing_partly (h : gathered frame = .partly) :
    s.gatherServing p frame = s.setReceiver p (.serving frame) := by
  rw [State.gatherServing, h]

theorem State.gatherServing_tooLong (h : gathered frame = .tooLong) :
    s.gatherServing p frame = (s.lengthDiscard p).settle := by
  rw [State.gatherServing, h]

theorem State.gatherServing_whole (h : gathered frame = .whole) :
    s.gatherServing p frame = (s.overrunDiscard p).settle := by
  rw [State.gatherServing, h]

/-! ### A whole frame (R144) -/

/-- A whole frame with a payload that a frame can carry, judged by its check. -/
def State.judgeFrame (s : State) (p : Port) (frame : List Byte) (seen : Findings) : State :=
  let n := u8At frame 4
  let formed := (crc16 (frame.take (5 + n))).toNat
  if u16At frame (5 + n) = formed then
    s.takeFrame p (frame.getD 1 0) (BitVec.ofNat 16 (u16At frame 2)) ((frame.drop 5).take n) seen
  else s.checkFail p (frame.getD 1 0) formed

theorem State.completeFrame_open (open' : (s.port p).receiver.open = true) (short : u8At frame 4 ≤ 56) :
    s.completeFrame p frame seen = (s.setReceiver p .listening).judgeFrame p frame seen :=
  s.onFrame_open p _ (fun s => s.judgeFrame p frame seen) open' short

theorem State.judgeFrame_of_bad_check (length : frame.length = 7 + u8At frame 4)
    (bad : frame.drop (frame.length - 2) ≠ be2 (crc16 (frame.take (frame.length - 2))).toNat) :
    (s.setReceiver p .listening).judgeFrame p frame seen =
      s.checkFail p (frame.getD 1 0) (crc16 (frame.take (frame.length - 2))).toNat := by
  have cut : frame.length - 2 = 5 + u8At frame 4 := by omega
  rw [cut] at bad ⊢
  have differs := mt (u16At_eq_iff (by omega) (BitVec.isLt _)).mp bad
  rw [State.judgeFrame, if_neg differs, State.checkFail_setReceiver]

end Sys2Proof.Machine

open Sys2Proof Sys2Proof.Machine

/-- Settles O10: by the state of the receiver, and then by what the byte makes of the frame. -/
theorem bytesAreGathered : Obligations.BytesAreGathered := by
  unfold Obligations.BytesAreGathered
  intro p b seen s running goesOn counts
  refine ⟨fun listening other => ?_, fun listening lead => ?_,
    fun partly collecting => ⟨fun on => ?_, fun four high => ?_, fun long low last bad => ?_⟩,
    fun a answering => exec_byteReceived running (State.hear_answering answering), fun searching other => ?_,
    fun searching lead => ?_,
    fun partly serving begun => ⟨fun on => ?_, fun four high => ?_, fun long low last => ?_⟩⟩ <;>
    refine exec_byteReceived running ?_
  · rw [State.hear_listening listening, if_neg other]
  · rw [State.hear_listening listening, if_pos lead, lead, State.setReceiver]
  · rw [State.hear_collecting collecting, State.gather_partly (gathered_of_goesOn on), State.setReceiver]
  · rw [State.hear_collecting collecting, State.gather_tooLong (gathered_of_long_length four high),
      State.lengthDiscard_open (by rw [collecting]; rfl)]
  · have five : u8At (partly ++ [b]) 4 = (partly.getD 4 0).toNat := u8At_append_of_lt [b] long
    have code : (partly ++ [b]).getD 1 0 = partly.getD 1 0 := List.getD_append _ _ _ _ (by omega)
    have whole : gathered (partly ++ [b]) = .whole :=
      gathered_of_last long low ((List.length_append (as := partly) (bs := [b])).symm.trans last)
    rw [State.hear_collecting collecting, State.gather_whole whole,
      State.completeFrame_open (by rw [collecting]; rfl) (five ▸ low), State.judgeFrame_of_bad_check (five ▸ last) bad,
      State.checkFail_eq, code]
    rfl
  · rw [State.hear_searching searching, if_neg other]
  · rw [State.hear_searching searching, if_pos lead, lead, State.setReceiver]
  · rw [State.hear_serving serving begun, State.gatherServing_partly (gathered_of_goesOn on), State.setReceiver]
  · rw [State.hear_serving serving begun, State.gatherServing_tooLong (gathered_of_long_length four high),
      State.lengthDiscard_serving serving]
  · rw [State.hear_serving serving begun, State.gatherServing_whole (gathered_of_last long low last),
      State.overrunDiscard_eq]

end

section
/-! SUPPORT. A frame's bytes one at a time (R143 to R145): gathered from LISTENING they are judged as one frame, and a
request row of the table is that judgement. -/

namespace Sys2Proof.Machine

variable {s : State} {p : Port} {seen : Findings} {whole : List Byte}

/-! ### Commands one after another -/

theorem execAll_cons {c : Instr} {rest : List Instr} {t : State} (h : exec c s = .next t) :
    execAll (c :: rest) s = execAll rest t := by
  rw [execAll, h]

/-! ### Gathering a whole frame -/

/-- The bytes of a frame up to any place before its end. -/
theorem gathered_of_front {front rest : List Byte} (cut : front ++ rest = whole) (more : rest ≠ [])
    (length : whole.length = 7 + u8At whole 4) (short : u8At whole 4 ≤ 56) : gathered front = .partly := by
  have count : front.length + rest.length = 7 + u8At whole 4 := by rw [← List.length_append, cut, length]
  have left := List.length_pos_iff.mpr more
  rw [gathered]
  by_cases head : front.length < 5
  · exact if_pos head
  · have five : u8At front 4 = u8At whole 4 := by rw [← cut, u8At_append_of_lt rest (by omega), u8At]
    rw [if_neg head, five, if_neg (by omega), if_pos (by omega)]

theorem gathered_of_length (length : whole.length = 7 + u8At whole 4) (short : u8At whole 4 ≤ 56) :
    gathered whole = .whole := by
  rw [gathered, if_neg (by omega), if_neg (by omega), if_neg (by omega)]

/-- The rest of a frame, gathered behind its front, is judged at its last byte. -/
theorem execAll_rest (running : s.phase = .running) (length : whole.length = 7 + u8At whole 4)
    (short : u8At whole 4 ≤ 56) (rest : List Byte) : ∀ front : List Byte, front ++ rest = whole → rest ≠ [] →
    execAll (rest.map fun b => .byteReceived p b seen) (s.setReceiver p (.collecting front)) =
      .next ((s.setReceiver p .listening).judgeFrame p whole seen).settle := by
  induction rest with
  | nil => exact fun _ _ more => absurd rfl more
  | cons b rest ih =>
    intro front cut _
    have onward : (front ++ [b]) ++ rest = whole := by rw [← cut, List.append_assoc]; rfl
    have collecting : ((s.setReceiver p (.collecting front)).port p).receiver = .collecting front := by
      rw [State.setReceiver, State.port_setPort, if_pos rfl]
    have runs : (s.setReceiver p (.collecting front)).phase = .running := running
    have again : ∀ r, (s.setReceiver p (.collecting front)).setReceiver p r = s.setReceiver p r := fun r => by
      simp [State.setReceiver, State.port_setPort]
    have heard := State.hear_collecting (b := b) (seen := seen) collecting
    rw [List.map_cons]
    cases rest with
    | nil =>
      rw [List.append_nil] at onward
      rw [onward, State.gather_whole (gathered_of_length length short),
        State.completeFrame_open (by rw [collecting]; rfl) short, again] at heard
      exact execAll_cons (exec_byteReceived runs heard)
    | cons b' rest =>
      rw [State.gather_partly (gathered_of_front onward (by simp) length short), again] at heard
      rw [execAll_cons (exec_byteReceived runs heard)]
      exact ih _ onward (by simp)

/-- From LISTENING a frame's bytes are judged as one frame. -/
theorem execAll_frame (running : s.phase = .running) (listening : (s.port p).receiver = .listening)
    (lead : whole.head? = some 0xC5) (length : whole.length = 7 + u8At whole 4) (short : u8At whole 4 ≤ 56) :
    execAll (whole.map fun b => .byteReceived p b seen) s =
      .next ((s.setReceiver p .listening).judgeFrame p whole seen).settle := by
  have begun : s.hear p 0xC5 seen = s.setReceiver p (.collecting [0xC5]) :=
    (State.hear_listening listening).trans (if_pos rfl)
  obtain ⟨rest, cut⟩ := List.head?_eq_some_iff.mp lead
  have more : rest ≠ [] := by
    rintro rfl
    rw [cut, List.length_singleton] at length
    omega
  rw [cut, List.map_cons, execAll_cons (exec_byteReceived running begun), ← cut]
  exact execAll_rest running length short rest [0xC5] cut.symm more

/-! ### The fields of a request frame (R143) -/

theorem u8At_requestBody (code : Byte) (item : Item) {payload : List Byte} (check : List Byte)
    (fits : payload.length ≤ 56) : u8At (requestBody code item payload ++ check) 4 = payload.length := by
  have five : u8At (requestBody code item payload ++ check) 4 = (BitVec.ofNat 8 payload.length).toNat := rfl
  rw [five, BitVec.toNat_ofNat]
  omega

theorem requestBody_length (code : Byte) (item : Item) (payload : List Byte) :
    (requestBody code item payload).length = 5 + payload.length := by
  simp [requestBody]
  omega

/-- A frame's own fields are read off it; its check decides between service and refusal (R144). -/
theorem State.judgeFrame_request (s : State) (p : Port) (code : Byte) (item : Item) {payload check : List Byte}
    (seen : Findings) (fits : payload.length ≤ 56) (two : check.length = 2) :
    s.judgeFrame p (requestBody code item payload ++ check) seen =
      if check = crcBytes (requestBody code item payload) then s.takeFrame p code item payload seen
      else s.checkFail p code (crc16 (requestBody code item payload)).toNat := by
  have body := requestBody_length code item payload
  have formed : (requestBody code item payload ++ check).take (5 + payload.length) = requestBody code item payload :=
    List.take_left' body
  have received : (requestBody code item payload ++ check).drop (5 + payload.length) = check := List.drop_left' body
  have named : u16At (requestBody code item payload ++ check) 2 = item.toNat := u16At_be2 item.isLt
  have carried : ((requestBody code item payload ++ check).drop 5).take payload.length = payload := List.take_left
  have matches' : u16At (requestBody code item payload ++ check) (5 + payload.length) =
      (crc16 (requestBody code item payload)).toNat ↔ check = crcBytes (requestBody code item payload) := by
    rw [u16At_eq_iff (by rw [List.length_append, body, two]) (BitVec.isLt _), received, crcBytes]
  rw [State.judgeFrame]
  rw [u8At_requestBody code item check fits, formed, named, carried, BitVec.ofNat_toNat, BitVec.setWidth_eq]
  exact ite_congr (propext matches') (fun _ => rfl) fun _ => rfl

/-- A request frame's bytes, with any check, from LISTENING. -/
theorem execAll_request (running : s.phase = .running) (listening : (s.port p).receiver = .listening) (code : Byte)
    (item : Item) {payload check : List Byte} (fits : payload.length ≤ 56) (two : check.length = 2) :
    execAll ((requestBody code item payload ++ check).map fun b => .byteReceived p b seen) s =
      .next (if check = crcBytes (requestBody code item payload) then
        (s.setReceiver p .listening).takeFrame p code item payload seen
      else s.checkFail p code (crc16 (requestBody code item payload)).toNat).settle := by
  have five := u8At_requestBody code item check fits
  have length : (requestBody code item payload ++ check).length = 7 + payload.length := by
    rw [List.length_append, requestBody_length, two]
    omega
  rw [execAll_frame running listening rfl (by rw [five, length]) (five.trans_le fits),
    State.judgeFrame_request _ p code item seen fits two, State.checkFail_setReceiver]

/-- A good frame's bytes from LISTENING take the frame. -/
theorem execAll_requestFrame (running : s.phase = .running) (listening : (s.port p).receiver = .listening) (code : Byte)
    (item : Item) {payload : List Byte} (fits : payload.length ≤ 56) :
    execAll ((requestFrame code item payload).map fun b => .byteReceived p b seen) s =
      .next ((s.setReceiver p .listening).takeFrame p code item payload seen).settle := by
  rw [requestFrame, execAll_request running listening code item fits rfl, if_pos rfl]

/-! ### The rows of the table as frames -/

/-- A well-formed request row is the completion of its frame, whatever a look at the module would find. -/
theorem exec_of_wellFormed {c : Instr} {f : Frame} (row : frame? seen c = some f) (wf : c.wellFormed = true)
    (s : State) : exec c s = whenRunning s fun s => s.onFrame f.port f.payload.length fun s =>
      s.takeFrame f.port f.code f.item f.payload seen := by
  cases c with
  | unknownRequestCode p code item payload =>
    cases row
    simp only [Instr.wellFormed, Bool.and_eq_true, Option.isNone_iff_eq_none] at wf
    simp only [exec, execUnknownRequestCode, State.takeFrame, wf.1]
  | jackSetExclude p item tail | jackSetInclude p item tail | jackSetClear p item tail | jackDefine p item tail
  | jackUndefine p item tail | sectorDefine p item tail | sectorUndefine p item tail | countersReadClear p item tail =>
    cases row
    simp only [exec, execJackSetExclude, execJackSetInclude, execJackSetClear, execJackDefine, execJackUndefine,
      execSectorDefine, execSectorUndefine, execCountersReadClear, Nat.add_comm 1]
    rfl
  | diagnose p item payload found =>
    simp only [frame?, Option.ite_none_right_eq_some, Option.some.injEq] at row
    obtain ⟨rfl, rfl⟩ := row
    rfl
  | _ => cases row <;> rfl

theorem payload_fits_of_wellFormed {c : Instr} {f : Frame} (row : frame? seen c = some f) (wf : c.wellFormed = true) :
    f.payload.length ≤ 56 := by
  cases c with
  | diagnose p item payload found =>
    simp only [frame?, Option.ite_none_right_eq_some, Option.some.injEq] at row
    obtain ⟨rfl, rfl⟩ := row
    exact of_decide_eq_true wf
  | _ =>
    cases row <;>
      simp only [Instr.wellFormed, payloadOk, Bool.and_eq_true, decide_eq_true_eq, List.length_cons] at wf ⊢ <;> omega

/-- A request row on a port that hears. -/
theorem exec_of_hears {c : Instr} {f : Frame} (row : frame? seen c = some f) (wf : c.wellFormed = true)
    (hears : s.Hears f.port) :
    exec c s = .next ((s.setReceiver f.port .listening).takeFrame f.port f.code f.item f.payload seen).settle := by
  rw [exec_of_wellFormed row wf, whenRunning_running s hears.1,
    s.onFrame_open _ _ _ hears.2 (payload_fits_of_wellFormed row wf)]

/-- A frame with a bad check, on a port that hears (R144). -/
theorem frameCheckFail_leaves (hears : s.Hears p) (code : Byte) (item : Item) {payload : List Byte}
    (fits : payload.length ≤ 56) :
    Leaves (.frameCheckFail p code item payload) s (s.checkFail p code (crc16 (requestBody code item payload)).toNat) :=
  leaves_of_whenRunning (execFrameCheckFail.eq_def p code item payload s) hears.1
    ((s.onFrame_open p _ _ hears.2 fits).trans (State.checkFail_setReceiver ..))

theorem State.hears_of_listening (running : s.phase = .running) (listening : (s.port p).receiver = .listening) :
    s.Hears p := ⟨running, by rw [listening]; rfl⟩

end Sys2Proof.Machine

open Sys2Proof Sys2Proof.Machine

/-- Settles O6: gathered byte by byte a frame is judged at its last byte, as its row judges it. -/
theorem bytesMakeTheFrame : Obligations.BytesMakeTheFrame := by
  unfold Obligations.BytesMakeTheFrame
  refine ⟨fun c seen f s row wf running listening => ?_,
    fun p code item payload check seen s fits two running listening bad => ?_⟩
  · rw [execAll_requestFrame running listening f.code f.item (payload_fits_of_wellFormed row wf),
      exec_of_hears row wf (State.hears_of_listening running listening)]
  · have differs : check ≠ crcBytes (requestBody code item payload) := bad
    have judged := execAll_request (seen := seen) running listening code item fits two
    rw [if_neg differs] at judged
    exact judged.trans (frameCheckFail_leaves (State.hears_of_listening running listening) code item fits).symm

end

section
/-! SUPPORT. What a frame that is not judged meets (R145 to R149): lost in ANSWERING, discarded in SERVING, and the
discards of a partial frame. -/

namespace Sys2Proof.Machine

variable {s : State} {p : Port} {seen : Findings} {partly : List Byte} {c : Instr}

/-- A frame that completes on a port in ANSWERING is lost (R145). -/
theorem leaves_same_of_answering {n : Nat} {judge : State → State} {a : Answer}
    (row : exec c s = whenRunning s fun s => s.onFrame p n judge) (running : s.phase = .running)
    (answering : (s.port p).receiver = .answering a) : Leaves c s s :=
  leaves_of_whenRunning row running (s.onFrame_answering p n judge a answering)

/-- A frame that completes on a port in SERVING is discarded unjudged (R149). -/
theorem leaves_overrun_of_serving {n : Nat} {judge : State → State} (fits : n ≤ 56)
    (row : exec c s = whenRunning s fun s => s.onFrame p n judge) (running : s.phase = .running)
    (serving : (s.port p).receiver = .serving partly) :
    Leaves c s (s.setPort p { s.port p with
      receiver := .serving []
      counters := { (s.port p).counters with overrun := sat16 ((s.port p).counters.overrun + 1) } }) :=
  leaves_of_whenRunning row running ((s.onFrame_serving p n judge partly serving fits).trans (s.overrunDiscard_eq p))

/-- The gap timer discards a partial frame, counts it and takes the port back to its search for a lead (R146, R149). -/
theorem gapTimerExpiry_leaves_discard {r : Receiver} (running : s.phase = .running)
    (gathering : (∃ partly, (s.port p).receiver = .collecting partly) ∧ r = .listening ∨
      (∃ lead partly, (s.port p).receiver = .serving (lead :: partly)) ∧ r = .serving []) :
    Leaves (.gapTimerExpiry p) s (s.setPort p { s.port p with
      receiver := r
      counters := { (s.port p).counters with gap := sat16 ((s.port p).counters.gap + 1) } }) := by
  refine leaves_of_whenRunning (execGapTimerExpiry.eq_def p s) running ?_
  rcases gathering with ⟨⟨partly, collecting⟩, rfl⟩ | ⟨⟨lead, partly, serving⟩, rfl⟩
  · rw [collecting]
    exact s.setReceiver_countPort ..
  · rw [serving]
    exact s.setReceiver_countPort ..

theorem frameLengthDiscard_leaves {u : State} (running : s.phase = .running) (discards : s.lengthDiscard p = u) :
    Leaves (.frameLengthDiscard p) s u :=
  leaves_of_whenRunning (execFrameLengthDiscard.eq_def p s) running discards

theorem State.lengthDiscard_answering {a : Answer} (answering : (s.port p).receiver = .answering a) :
    s.lengthDiscard p = s := by
  rw [State.lengthDiscard, answering]

theorem frameOverrunDiscard_leaves (running : s.phase = .running) (serving : (s.port p).receiver = .serving partly) :
    Leaves (.frameOverrunDiscard p) s (s.setPort p { s.port p with
      receiver := .serving []
      counters := { (s.port p).counters with overrun := sat16 ((s.port p).counters.overrun + 1) } }) := by
  refine leaves_of_whenRunning (execFrameOverrunDiscard.eq_def p s) running ?_
  rw [serving]
  exact s.overrunDiscard_eq p

end Sys2Proof.Machine

open Sys2Proof Sys2Proof.Machine

/-- Settles O8: the check decides on a port that hears, and it is untested on any other. -/
theorem badChecksAreRefused : Obligations.BadChecksAreRefused := by
  unfold Obligations.BadChecksAreRefused
  intro p code item payload s fits body counts
  have row := execFrameCheckFail.eq_def p code item payload s
  refine ⟨fun hears => ?_, fun running a => leaves_same_of_answering row running,
    fun running partly => leaves_overrun_of_serving fits row running⟩
  have leaves := frameCheckFail_leaves hears code item fits
  rwa [State.checkFail_eq] at leaves

/-- Settles O9: a frame in ANSWERING and in SERVING, then each discard by the state of the receiver. -/
theorem discardsAreCounted : Obligations.DiscardsAreCounted := by
  unfold Obligations.DiscardsAreCounted
  refine ⟨fun c seen f s row wf running => ?_, fun p s running => ?_⟩
  · have completes := exec_of_wellFormed row wf s
    exact ⟨fun a => leaves_same_of_answering completes running,
      fun partly => leaves_overrun_of_serving (payload_fits_of_wellFormed row wf) completes running⟩
  · exact ⟨fun partly collecting => gapTimerExpiry_leaves_discard running (.inl ⟨⟨partly, collecting⟩, rfl⟩),
      fun lead partly serving => gapTimerExpiry_leaves_discard running (.inr ⟨⟨lead, partly, serving⟩, rfl⟩),
      fun hears => frameLengthDiscard_leaves running (State.lengthDiscard_open hears),
      fun partly serving => frameLengthDiscard_leaves running (State.lengthDiscard_serving serving),
      fun a answering => frameLengthDiscard_leaves running (State.lengthDiscard_answering answering),
      fun partly => frameOverrunDiscard_leaves running⟩

end

section
/-! SUPPORT. The tests of a good frame before its service (R148): the request table of section 8.4, a refusal on the
link, and the frames whose action byte is that of no row (sections 1.4, 1.7 and 1.10). -/

namespace Sys2Proof.Machine

variable {s u : State} {p : Port} {code : Byte} {item : Item} {payload : List Byte} {seen : Findings} {a : Answer}

/-! ### The request table (section 8.4) -/

theorem Request.mem_all (r : Request) : r ∈ Request.all := by cases r <;> decide

theorem Request.ofCode?_code (r : Request) : Request.ofCode? r.code = some r := by cases r <;> rfl

theorem Request.code_of_ofCode? {r : Request} (known : Request.ofCode? code = some r) : r.code = code :=
  beq_iff_eq.mp (List.find?_some (p := fun r : Request => r.code == code) known)

theorem Request.ofCode?_eq_none_iff : Request.ofCode? code = none ↔ ∀ r : Request, r.code ≠ code := by
  refine List.find?_eq_none.trans ⟨fun other r same => ?_, fun other r _ same => other r (beq_iff_eq.mp same)⟩
  exact other r r.mem_all (beq_iff_eq.mpr same)

/-- A request's row: its code, the ports that may send it and its payload lengths. -/
def Request.row (r : Request) : Byte × List Port × List Nat :=
  (r.code, Port.all.filter r.allowed, (List.range 57).filter r.lengthOk)

theorem Request.mem_row_ports (r : Request) (p : Port) : r.allowed p = true ↔ p ∈ r.row.2.1 := by
  have every : p ∈ Port.all := by cases p <;> decide
  simp [Request.row, every]

theorem Request.mem_row_lengths (r : Request) (n : Nat) : r.lengthOk n = true ↔ n ∈ r.row.2.2 := by
  refine ⟨fun ok => List.mem_filter.mpr ⟨List.mem_range.mpr ?_, ok⟩, fun listed => (List.mem_filter.mp listed).2⟩
  exact Nat.lt_succ_of_le (Request.le_of_lengthOk ok)

/-! ### An answer on the link -/

/-- A reply on the link `l` that a good frame has left behind, with the deck as `u` has it. -/
theorem answersWith_respond {l : Link} {reply : Reply} (answer : reply.answer? code = some a)
    (own : (u.withLink l).port p = { u.port p with
      receiver := ((u.withLink l).port p).receiver
      counters := { (s.port p).counters with good := sat16 ((s.port p).counters.good + 1) } })
    (others : ∀ q, q ≠ p → (u.withLink l).port q = u.port q)
    (aliveA : l.aliveA = if p = .stationA then some s.active.aliveTo else u.aliveA)
    (aliveB : l.aliveB = if p = .stationB then some s.active.aliveTo else u.aliveB) :
    AnswersWith (.next ((u.withLink l).respond p code reply).settle) p a s u := by
  rw [State.respond_answer _ p answer]
  refine ⟨_, rfl, ?_, fun q other => ?_, aliveA, aliveB, rfl, ⟨rfl, rfl⟩, rfl⟩
  · refine (State.port_setPort _ p p _).trans ?_
    rw [if_pos rfl, own]
    cases a.kind <;> rfl
  · refine (State.port_setPort _ p q _).trans ?_
    rw [if_neg other, others q other]

/-- The link after a good frame, port by port. -/
theorem State.withLink_linkAfterFrame_port (s : State) (p q : Port) :
    (s.withLink (s.linkAfterFrame p)).port q = if q = p then { s.port p with
      receiver := .listening
      counters := { (s.port p).counters with good := sat16 ((s.port p).counters.good + 1) } } else s.port q :=
  s.port_setPort p q _

/-- A frame refused on the link changes nothing but its port's counters and alive timer (R148). -/
theorem answersWith_refusal (reason : RefuseCode) (detail : Nat) :
    AnswersWith (.next (((s.setReceiver p .listening).goodFrame p).respond p code (.refuse reason detail)).settle) p
      ⟨.refuse, code, refusal reason detail⟩ s s := by
  rw [State.goodFrame_setReceiver]
  refine answersWith_respond rfl ?_ (fun q other => ?_) rfl rfl
  · rw [State.withLink_linkAfterFrame_port, if_pos rfl]
  · rw [State.withLink_linkAfterFrame_port, if_neg other]

/-! ### A known request, judged before service -/

theorem State.takeFrame_known {r : Request} (known : Request.ofCode? code = some r) :
    s.takeFrame p code item payload seen = s.take r p payload.length (serveRequest r p item payload seen) := by
  rw [State.takeFrame, known]

theorem State.takeFrame_unknown (unknown : Request.ofCode? code = none) :
    s.takeFrame p code item payload seen = (s.goodFrame p).respond p code (.refuse .unknown code.toNat) := by
  rw [State.takeFrame, unknown, State.takeUnknown]

theorem State.takeFrame_of_foreign {r : Request} (known : Request.ofCode? code = some r)
    (foreign : r.allowed p = false) :
    s.takeFrame p code item payload seen = (s.goodFrame p).respond p code (.refuse .role p.number) := by
  rw [State.takeFrame_known known, State.take_cases, if_pos foreign, Request.code_of_ofCode? known]

theorem State.takeFrame_of_bad_length {r : Request} (known : Request.ofCode? code = some r)
    (allowed : r.allowed p = true) (bad : r.lengthOk payload.length = false) :
    s.takeFrame p code item payload seen = (s.goodFrame p).respond p code (.refuse .length payload.length) := by
  rw [State.takeFrame_known known, State.take_cases, allowed, if_neg Bool.noConfusion, if_pos bad,
    Request.code_of_ofCode? known]

/-! ### Action bytes of no row -/

/-- A good frame of a known request, byte by byte from LISTENING, is answered as its row is. -/
theorem execAll_requestFrame_answers {r : Request} {reply : Reply} (running : s.phase = .running)
    (listening : (s.port p).receiver = .listening) (allowed : r.allowed p = true)
    (lengthOk : r.lengthOk payload.length = true) (blind : LinkBlind (serveRequest r p item payload seen))
    (served : serveRequest r p item payload seen s = (u, reply)) (answer : reply.answer? r.code = some a) :
    AnswersWith (execAll ((requestFrame r.code item payload).map fun b => .byteReceived p b seen) s) p a s u := by
  have fits := Request.le_of_lengthOk lengthOk
  have hears := State.hears_of_listening running listening
  have answered := request_answers blind hears allowed lengthOk served answer
  rw [request_hears s r p _ _ hears fits] at answered
  rwa [execAll_requestFrame running listening r.code item fits, State.takeFrame_known r.ofCode?_code]

section Actions

variable {action : Byte} {tail : List Byte}

/-- An action byte that is not that of a row does not read as its number. -/
theorem u8At_cons_ne {n : Nat} (small : n < 256) (other : action ≠ BitVec.ofNat 8 n) : u8At (action :: tail) 0 ≠ n := by
  intro same
  refine other (BitVec.eq_of_toNat_eq ?_)
  rw [BitVec.toNat_ofNat, Nat.mod_eq_of_lt small]
  exact same

theorem serveJackSet_of_no_row (ne1 : action ≠ 1) (ne2 : action ≠ 2) (ne3 : action ≠ 3) :
    serveJackSet item (action :: tail) = fun s =>
      if (s.definedJack? item).isNone then (s, .refuse .item item.toNat) else (s, .refuse .range 1) := by
  funext s
  unfold serveJackSet
  split
  · next one => exact absurd one (u8At_cons_ne (by decide) ne1)
  · next two => exact absurd two (u8At_cons_ne (by decide) ne2)
  · next three => exact absurd three (u8At_cons_ne (by decide) ne3)
  · rfl

theorem serveJackDefineAny_of_no_row (ne1 : action ≠ 1) (ne2 : action ≠ 2) :
    serveJackDefineAny item (action :: tail) = fun s =>
      if 96 ≤ item.toNat then (s, .refuse .item item.toNat) else (s, .refuse .range 1) := by
  funext s
  unfold serveJackDefineAny
  split
  · next one => exact absurd one (u8At_cons_ne (by decide) ne1)
  · next two => exact absurd two (u8At_cons_ne (by decide) ne2)
  · rfl

theorem serveSectorDefineAny_of_no_row (ne1 : action ≠ 1) (ne2 : action ≠ 2) :
    serveSectorDefineAny item (action :: tail) = fun s =>
      if 24 ≤ item.toNat then (s, .refuse .item item.toNat) else (s, .refuse .range 1) := by
  funext s
  unfold serveSectorDefineAny
  split
  · next one => exact absurd one (u8At_cons_ne (by decide) ne1)
  · next two => exact absurd two (u8At_cons_ne (by decide) ne2)
  · rfl

/-- A console frame whose rule comes down to one test of the item: refused ITEM where the test rejects the item, else
RANGE with detail 1. -/
theorem execAll_refuses_action {r : Request} {bad : State → Prop} [∀ s, Decidable (bad s)]
    (running : s.phase = .running) (listening : (s.port .console).receiver = .listening) (allowed : r.allowed .console = true)
    (lengthOk : r.lengthOk payload.length = true) (blind : ∀ s l, bad (s.withLink l) ↔ bad s)
    (rule : serveRequest r .console item payload seen = fun s =>
      if bad s then (s, .refuse .item item.toNat) else (s, .refuse .range 1))
    {itemOk : Prop} (test : bad s ↔ ¬ itemOk) :
    let sent := execAll ((requestFrame r.code item payload).map fun b => .byteReceived .console b seen) s
    (itemOk → AnswersWith sent .console ⟨.refuse, r.code, [0x05, 0, 1]⟩ s s) ∧
      (¬ itemOk → AnswersWith sent .console ⟨.refuse, r.code, be1 0x04 ++ be2 item.toNat⟩ s s) := by
  have blind' : LinkBlind (serveRequest r .console item payload seen) := by
    rw [rule]
    exact fun s l => ite_withLink (blind s l) rfl rfl
  refine ⟨fun ok => ?_, fun notOk => ?_⟩
  · have served : serveRequest r .console item payload seen s = (s, .refuse .range 1) := by
      rw [rule]
      exact if_neg fun h => test.mp h ok
    exact execAll_requestFrame_answers running listening allowed lengthOk blind' served rfl
  · have served : serveRequest r .console item payload seen s = (s, .refuse .item item.toNat) := by
      rw [rule]
      exact if_pos (test.mpr notOk)
    exact execAll_requestFrame_answers running listening allowed lengthOk blind' served rfl

theorem State.definedJack?_isNone_iff (s : State) (item : Item) :
    (s.definedJack? item).isNone = true ↔ ¬ ∃ j : JackIx, item.toNat = j.val ∧ (s.jack j).live.state ≠ .undefined := by
  rw [Option.isNone_iff_eq_none]
  refine ⟨fun none ⟨j, at_, defined⟩ => ?_, fun no => State.definedJack?_eq_none fun j at_ => ?_⟩
  · rw [State.definedJack?_eq_some at_ defined] at none
    cases none
  · exact not_not.mp fun defined => no ⟨j, at_, defined⟩

end Actions

end Sys2Proof.Machine

open Sys2Proof Sys2Proof.Machine

/-- Settles O7: the table is that of the requests' own rows, and each test refuses before any rule is served. -/
theorem framesAreTestedBeforeService : Obligations.FramesAreTestedBeforeService := by
  unfold Obligations.FramesAreTestedBeforeService
  refine ⟨?_, fun p code item payload s unknown fits hears => ?_, fun c seen f r s row wf known hears => ⟨?_, ?_⟩, ?_⟩
  · intro every stations
    refine ⟨rfl, rfl, rfl, ?_⟩
    intro table
    have rows : table = Request.all.map Request.row := by decide
    rw [rows]
    refine ⟨fun code => ?_, fun row listed => ?_⟩
    · rw [Request.ofCode?_eq_none_iff, List.forall_mem_map]
      exact ⟨fun other r _ => other r, fun other r => other r r.mem_all⟩
    · obtain ⟨r, -, rfl⟩ := List.mem_map.mp listed
      exact ⟨r, r.ofCode?_code, r.mem_row_ports, r.mem_row_lengths⟩
  · have wf : (Instr.unknownRequestCode p code item payload).wellFormed = true := by
      simp [Instr.wellFormed, unknown, payloadOk, fits]
    rw [Answered, exec_of_hears (seen := seenBy (.unknownRequestCode p code item payload)) rfl wf hears,
      State.takeFrame_unknown unknown]
    exact answersWith_refusal .unknown code.toNat
  · intro foreign
    rw [Answered, exec_of_hears row wf hears, State.takeFrame_of_foreign known foreign]
    exact answersWith_refusal .role f.port.number
  · intro allowed bad
    rw [Answered, exec_of_hears row wf hears, State.takeFrame_of_bad_length known allowed bad]
    exact answersWith_refusal .length f.payload.length
  · intro item action tail seen s running listening
    refine ⟨fun ne1 ne2 ne3 length => ?_, fun ne1 ne2 length => ?_, fun ne1 ne2 length => ?_⟩
    · exact execAll_refuses_action (r := .jackSet) running listening rfl (by rw [List.length_cons, length]; rfl)
        (fun _ _ => Iff.rfl) (serveJackSet_of_no_row ne1 ne2 ne3) (s.definedJack?_isNone_iff item)
    · exact execAll_refuses_action (r := .jackDefine) running listening rfl (by rw [List.length_cons, length]; rfl)
        (fun _ _ => Iff.rfl) (serveJackDefineAny_of_no_row ne1 ne2) Nat.not_lt.symm
    · exact execAll_refuses_action (r := .sectorDefine) running listening rfl (by rw [List.length_cons, length]; rfl)
        (fun _ _ => Iff.rfl) (serveSectorDefineAny_of_no_row ne1 ne2) Nat.not_lt.symm

end

section
/-! SUPPORT. Port speeds (R141, R142) and the answer that has left its port (R145, R164, R170). -/

namespace Sys2Proof.Machine

variable {s : State} {p q : Port} {v : Speed} {item : Item} {b : Byte}

/-! ### Speed codes (R142) -/

theorem Speed.ofCode?_eq_some_iff {n : Nat} : Speed.ofCode? n = some v ↔ v.code = n := by
  constructor
  · intro named
    unfold Speed.ofCode? at named
    split at named <;> cases named <;> rfl
  · rintro rfl
    cases v <;> rfl

theorem Speed.ofCode?_eq_none {n : Nat} (high : 4 < n) : Speed.ofCode? n = none := by
  refine Option.eq_none_iff_forall_ne_some.mpr fun v named => ?_
  have code := Speed.ofCode?_eq_some_iff.mp named
  cases v <;> cases code <;> exact absurd high (by decide)

theorem Port.ofNumber?_number (q : Port) : Port.ofNumber? q.number = some q := by cases q <;> rfl

theorem Port.ofNumber?_eq_none {n : Nat} (bad : n = 0 ∨ 4 < n) : Port.ofNumber? n = none := by
  refine Option.eq_none_iff_forall_ne_some.mpr fun q named => ?_
  have number : q.number = n := by
    unfold Port.ofNumber? at named
    split at named <;> cases named <;> rfl
  cases q <;> cases number <;> exact absurd bad (by decide)

/-! ### A speed sent to a port -/

/-- The line of a port takes a new speed at once (R142): not port 4's, and not that of a port that is answering. -/
abbrev PortRec.AtOnce (q : Port) (r : PortRec) : Prop :=
  q ≠ .console ∧ (r.receiver = .listening ∨ ∃ frame, r.receiver = .collecting frame)

/-- A port's record when a speed has been sent to it. -/
def PortRec.sent (r : PortRec) (q : Port) (v : Speed) : PortRec :=
  if q ≠ .console ∧ r.receiver.open then { r with speed := v }.takeSpeed else { r with speed := v }

theorem State.setSpeed_eq_sent (s : State) (q : Port) (v : Speed) :
    s.setSpeed q v = s.setPort q ((s.port q).sent q v) := rfl

theorem State.setSpeed_port (s : State) (q : Port) (v : Speed) (i : Port) :
    (s.setSpeed q v).port i = if i = q then (s.port q).sent q v else s.port i :=
  s.port_setPort q i _

theorem Receiver.open_iff (r : Receiver) : r.open = true ↔ r = .listening ∨ ∃ frame, r = .collecting frame := by
  cases r <;> simp [Receiver.open]

/-- The speed reaches the line, and a partial frame is dropped. -/
theorem PortRec.sent_of_atOnce {r : PortRec} (atOnce : r.AtOnce q) (new : r.lineSpeed ≠ v) :
    r.sent q v = { r with speed := v, lineSpeed := v, receiver := .listening } := by
  obtain ⟨other, receiver⟩ := atOnce
  rw [PortRec.sent, if_pos ⟨other, (Receiver.open_iff _).mpr receiver⟩, PortRec.takeSpeed, if_neg new]
  rcases receiver with listening | ⟨frame, collecting⟩
  · simp only [listening]
  · simp only [collecting]

/-- The speed is held: the line keeps its own, or has it already. -/
theorem PortRec.sent_of_held {r : PortRec} (held : ¬ r.AtOnce q ∨ r.lineSpeed = v) :
    r.sent q v = { r with speed := v } := by
  rw [PortRec.sent]
  split
  · next atOnce =>
    have same := held.resolve_left (not_not.mpr ⟨atOnce.1, (Receiver.open_iff _).mp atOnce.2⟩)
    rw [PortRec.takeSpeed, if_pos same]
  · rfl

/-- The four speeds are sent port by port (R141). -/
theorem State.setSpeeds_eq (s : State) (speeds : Vector Speed 4) :
    s.setSpeeds speeds = (((s.setSpeed .stationA speeds[Port.stationA.ix]).setSpeed .stationB
      speeds[Port.stationB.ix]).setSpeed .feed speeds[Port.feed.ix]).setSpeed .console speeds[Port.console.ix] := rfl

theorem State.setSpeeds_ports_alone (s : State) (speeds : Vector Speed 4) :
    s.setSpeeds speeds = { s with ports := (s.setSpeeds speeds).ports } := by
  rw [State.setSpeeds_eq]
  simp only [State.setSpeed_eq_sent, State.setPort]

theorem State.setSpeeds_port (s : State) (speeds : Vector Speed 4) (q : Port) :
    (s.setSpeeds speeds).port q = (s.port q).sent q speeds[q.ix] := by
  rw [State.setSpeeds_eq]
  simp only [State.setSpeed_port]
  cases q <;> rfl

/-! ### PORT SET (R142) -/

theorem servePortSet_bad_item (bad : item.toNat = 0 ∨ 4 < item.toNat) (payload : List Byte) :
    servePortSet item payload = fun s => (s, .refuse .item item.toNat) := by
  funext s
  rw [servePortSet, Port.ofNumber?_eq_none bad]

theorem servePortSet_bad_speed (number : item.toNat = q.number) (high : 4 < b.toNat) :
    servePortSet item [b] = fun s => (s, .refuse .range 1) := by
  funext s
  have code : Speed.ofCode? (u8At [b] 0) = none := Speed.ofCode?_eq_none high
  rw [servePortSet, number, Port.ofNumber?_number q]
  simp only [code]

theorem servePortSet_good (number : item.toNat = q.number) (named : Speed.ofCode? b.toNat = some v) (s : State) :
    servePortSet item [b] s = (s.setSpeed q v, .accept (be1 v.code)) := by
  have code : Speed.ofCode? (u8At [b] 0) = some v := named
  rw [servePortSet, number, Port.ofNumber?_number q]
  simp only [code]

theorem Port.exists_number {n : Nat} (low : 1 ≤ n) (high : n ≤ 4) : ∃ q : Port, n = q.number := by
  interval_cases n
  exacts [⟨.stationA, rfl⟩, ⟨.stationB, rfl⟩, ⟨.feed, rfl⟩, ⟨.console, rfl⟩]

/-- A PORT SET that is refused whatever the deck. -/
theorem portSet_refused {code : RefuseCode} {detail : Nat} (hears : s.Hears .console)
    (rule : servePortSet item [b] = fun s => (s, .refuse code detail)) :
    Refused (.portSet .console item [b]) .console 0x61 code.code detail s :=
  request_answers (by rw [rule]; exact fun _ _ => rfl) hears rfl rfl (congrFun rule s) rfl

/-- A speed sent to the console's own port is held until its answer has left. -/
theorem PortRec.sent_console (r : PortRec) : r.sent .console v = { r with speed := v } := if_neg fun h => h.1 rfl

/-- A PORT SET that names a port and a speed: the port is the one that the speed is sent to, as it stands when the frame
comes. -/
theorem portSet_answered (hears : s.Hears .console) (number : item.toNat = q.number)
    (named : Speed.ofCode? b.toNat = some v) :
    Answered (.portSet .console item [b]) .console ⟨.accept, 0x61, be1 v.code⟩ s (s.setSpeed q v) := by
  have row : exec (.portSet .console item [b]) s = request .portSet .console 1 (servePortSet item [b]) s := rfl
  let served := (s.withLink (s.linkAfterFrame .console)).setSpeed q v
  have taken : (s.setReceiver .console .listening).take .portSet .console 1 (servePortSet item [b]) =
      ((s.setSpeed q v).withLink served.link).respond .console 0x61 (.accept (be1 v.code)) := by
    rw [State.take_cases, State.goodFrame_setReceiver, servePortSet_good number named]
    rfl
  have port : ∀ i, ((s.setSpeed q v).withLink served.link).port i =
      if i = q then ((s.withLink (s.linkAfterFrame .console)).port q).sent q v
      else (s.withLink (s.linkAfterFrame .console)).port i := State.setSpeed_port _ q v
  rw [Answered, row, request_hears s .portSet .console 1 _ hears (by decide), taken]
  refine answersWith_respond rfl ?_ (fun i other => ?_) rfl rfl
  · rw [port, State.setSpeed_port]
    by_cases self : Port.console = q
    · subst self
      simp only [if_pos, State.withLink_linkAfterFrame_port, PortRec.sent_console]
    · simp only [if_neg self, State.withLink_linkAfterFrame_port, if_pos]
  · rw [port, State.setSpeed_port]
    by_cases self : i = q
    · subst self
      simp only [if_pos, State.withLink_linkAfterFrame_port, if_neg other]
    · simp only [if_neg self, State.withLink_linkAfterFrame_port, if_neg other]

/-! ### An answer has left (R145, R164, R170) -/

theorem State.reopen_eq (s : State) (p : Port) :
    s.reopen p = s.setPort p { s.port p with receiver := .listening, lineSpeed := (s.port p).speed } := by
  rw [State.reopen, PortRec.takeSpeed]
  split
  · next same =>
    dsimp only at same
    rw [← same]
  · rfl

theorem State.reopen_port (s : State) (p q : Port) : (s.reopen p).port q =
    if q = p then { s.port p with receiver := .listening, lineSpeed := (s.port p).speed } else s.port q := by
  rw [State.reopen_eq, State.port_setPort]

/-- A halted module's outputs are as its halt has driven them. -/
theorem State.haltedAt_settle {ph : Phase} (stopped : ph ≠ .running) : (s.haltedAt ph).settle = s.haltedAt ph := by
  have same : (s.haltedAt ph).conditions = s.conditions := rfl
  rw [State.settle_stopped stopped, same]
  simp only [State.haltedAt, Conditions.inter_inter_self, if_pos]

/-- The phase of a running module when an answer has left: only one that left port 4 was holding anything back. -/
def State.phaseAfterAnswer (s : State) (p : Port) : Phase :=
  if p ≠ .console then .running else
    match s.afterAnswer with
    | .nothing => .running
    | .restart => .starting false
    | .retainedLoss => .starting true

theorem State.answerLeft_eq {a : Answer} (answering : (s.port p).receiver = .answering a) :
    s.answerLeft p =
      if s.phaseAfterAnswer p = .running then s.reopen p else (s.reopen p).halt (s.phaseAfterAnswer p) := by
  have held : (s.reopen p).afterAnswer = s.afterAnswer := rfl
  rw [State.answerLeft, answering, State.afterConsole, held, State.phaseAfterAnswer]
  by_cases console : p = .console
  · cases s.afterAnswer <;> simp [console]
  · simp [console]

theorem answerSent_running {a : Answer} (running : s.phase = .running) (answering : (s.port p).receiver = .answering a)
    (stays : s.phaseAfterAnswer p = .running) : exec (.answerSent p) s = .next (s.reopen p).settle :=
  leaves_of_whenRunning (execAnswerSent.eq_def p s) running ((State.answerLeft_eq answering).trans (if_pos stays))

theorem answerSent_halts {a : Answer} (running : s.phase = .running) (answering : (s.port p).receiver = .answering a)
    (stops : s.phaseAfterAnswer p ≠ .running) :
    exec (.answerSent p) s = .next ((s.reopen p).haltedAt (s.phaseAfterAnswer p)) := by
  have left := (State.answerLeft_eq answering).trans ((if_neg stops).trans (State.halt_eq stops))
  have leaves : exec (.answerSent p) s = .next _ := leaves_of_whenRunning (execAnswerSent.eq_def p s) running left
  rwa [State.haltedAt_settle stops] at leaves

end Sys2Proof.Machine

open Sys2Proof Sys2Proof.Machine

/-- Settles O46: a sent speed is held or reaches the line by the state of its port's receiver. -/
theorem portSetHoldsTheSpeed : Obligations.PortSetHoldsTheSpeed := by
  unfold Obligations.PortSetHoldsTheSpeed
  refine ⟨rfl, fun n v => Speed.ofCode?_eq_some_iff,
    fun s speeds => ⟨s.setSpeeds_ports_alone speeds, fun q => ⟨fun atOnce new => ?_, fun held => ?_⟩⟩,
    fun s item b hears => ⟨fun bad => ?_, fun low high code => ?_⟩,
    fun s item q b v hears number named => ⟨fun atOnce new => ?_, fun held => ?_⟩⟩
  · rw [State.setSpeeds_port, PortRec.sent_of_atOnce atOnce new]
  · rw [State.setSpeeds_port, PortRec.sent_of_held held]
  · exact portSet_refused hears (servePortSet_bad_item bad [b])
  · obtain ⟨q, number⟩ := Port.exists_number low high
    exact portSet_refused hears (servePortSet_bad_speed number code)
  · rw [← PortRec.sent_of_atOnce atOnce new]
    exact portSet_answered hears number named
  · rw [← PortRec.sent_of_held held]
    exact portSet_answered hears number named

/-- Settles O11: by what the answer was holding back. -/
theorem answerSentReopensThePort : Obligations.AnswerSentReopensThePort := by
  unfold Obligations.AnswerSentReopensThePort
  intro p a s running answering
  have own := (s.reopen_port p p).trans (if_pos rfl)
  have others : ∀ q, q ≠ p → (s.reopen p).port q = s.port q := fun q other => (s.reopen_port p q).trans (if_neg other)
  by_cases stays : s.phaseAfterAnswer p = .running
  · exact ⟨_, answerSent_running running answering stays, own, others, running.trans stays.symm,
      fun stopped => absurd running stopped, fun _ => rfl⟩
  · exact ⟨_, answerSent_halts running answering stays, own, others, rfl, fun _ => ⟨rfl, rfl, rfl, rfl⟩,
      fun runs => absurd runs stays⟩

end

section
/-! SUPPORT. The sounder's patterns in time (R157), and SILENCE (R158). -/

namespace Sys2Proof.Machine

variable {s : State}

/-! ### Patterns in time -/

theorem segmentAt_of_lt {ms t : Nat} (tone : Option Nat) (rest : List Segment) (within : t < ms) :
    segmentAt ((ms, tone) :: rest) t = tone := if_pos within

theorem segmentAt_of_le {ms t : Nat} (tone : Option Nat) (rest : List Segment) (past : ms ≤ t) :
    segmentAt ((ms, tone) :: rest) t = segmentAt rest (t - ms) := if_neg past.not_gt

/-- A pattern of two segments, at a position within its cycle. -/
theorem segmentAt_pair {m n t : Nat} (first second : Option Nat) (within : t < m + n) :
    segmentAt [(m, first), (n, second)] t = if t < m then first else second := by
  rcases Nat.lt_or_ge t m with low | high
  · rw [segmentAt_of_lt _ _ low, if_pos low]
  · rw [segmentAt_of_le _ _ high, segmentAt_of_lt _ _ (by omega), if_neg high.not_gt]

/-- The two beeps of STALL. -/
theorem segmentAt_stall {t : Nat} (within : t < 10000) :
    segmentAt Condition.stall.pattern t = if t < 150 ∨ 300 ≤ t ∧ t < 450 then some 178 else none := by
  rw [Condition.pattern]
  rcases Nat.lt_or_ge t 150 with first | past
  · rw [segmentAt_of_lt _ _ first, if_pos (.inl first)]
  rw [segmentAt_of_le _ _ past]
  rcases Nat.lt_or_ge t 300 with pause | past'
  · rw [segmentAt_of_lt _ _ (by omega), if_neg (by omega)]
  · rw [segmentAt_of_le _ _ (by omega), segmentAt_pair _ _ (by omega)]
    exact if_congr (by omega) rfl rfl

theorem step_of_no_command (idle : s.pending = []) : step s = .next s.idle := by
  rw [step, idle]

theorem State.idle_of_silent (silent : s.sounder.playing = none) : s.idle = s := by
  rw [State.idle, Sounder.advance, silent]

theorem State.idle_of_playing {c : Condition} (plays : s.sounder.playing = some c) :
    s.idle = { s with sounder := { s.sounder with positionMs := (s.sounder.positionMs + 1) % c.cycleMs } } := by
  simp only [State.idle, Sounder.advance, plays]

/-! ### SILENCE -/

theorem Conditions.code_eq (c : Conditions) : c.code = (if c.held then 1 else 0) + (if c.level then 2 else 0) +
    (if c.lag then 4 else 0) + (if c.stall then 8 else 0) + (if c.probe then 16 else 0) := rfl

@[simp] theorem Conditions.inter_self (a : Conditions) : a.inter a = a := by simp [Conditions.inter]

/-- A mute set less what is false, with everything true, is everything true. -/
@[simp] theorem Conditions.inter_union_self (a b : Conditions) : (a.inter b).union b = b := by
  have absorb : ∀ x y : Bool, (x && y || y) = y := by decide
  simp only [Conditions.inter, Conditions.union, absorb]

/-- With every true condition muted, none is selected. -/
@[simp] theorem Conditions.select_self (a : Conditions) : a.select a = none :=
  Conditions.select_eq_none_iff.mpr fun _ => id

theorem State.silenced_eq (s : State) : s.silenced = { s with sounder := { s.sounder with muted := s.conditions } } := by
  rw [State.silenced, Conditions.inter_union_self]

/-- A sounder that mutes the conditions as they stand falls silent. -/
theorem Sounder.reselect_of_all_muted {o : Sounder} (powered : Bool) {active : Conditions} (all : o.muted = active) :
    o.reselect powered active = ⟨none, if o.playing = none then o.positionMs else 0, active⟩ := by
  simp [Sounder.reselect, all, eq_comm (b := o.playing)]

theorem serveSilence_eq (s : State) : serveSilence s = (s.silenced, .accept
    (be1 s.conditions.code ++ be1 s.conditions.code ++ be1 0)) := by
  have muted : s.silenced.sounder.muted = s.conditions := by rw [State.silenced_eq]
  rw [serveSilence, muted, Conditions.select_self]

theorem serveSilence_linkBlind : LinkBlind serveSilence := fun _ _ => rfl

theorem silence_answers {item : Item} (hears : s.Hears .console) :
    Answered (.silence .console item []) .console
      ⟨.accept, 0x59, be1 s.conditions.code ++ be1 s.conditions.code ++ be1 0⟩ s s.silenced :=
  request_answers serveSilence_linkBlind hears rfl rfl (serveSilence_eq s) rfl

end Sys2Proof.Machine

open Sys2Proof Sys2Proof.Machine

/-- Settles O2: a pattern sounds what its segment at the position sounds, and an idle step moves that position alone. -/
theorem idleStepPlaysTheSounder : Obligations.IdleStepPlaysTheSounder := by
  refine ⟨rfl, fun ms muted => ⟨fun low => ?_, fun low => ?_, fun low => ?_, fun low => ?_, fun low => ?_, rfl⟩,
    fun s idle => ⟨fun silent => ?_, fun c plays => ?_⟩⟩
  · exact (segmentAt_pair _ _ low).trans (apply_ite some _ _ _).symm
  · exact segmentAt_pair _ _ low
  · exact segmentAt_pair _ _ low
  · exact segmentAt_stall low
  · exact segmentAt_pair _ _ low
  · rw [step_of_no_command idle, State.idle_of_silent silent]
  · rw [step_of_no_command idle, State.idle_of_playing plays]

/-- Settles O43: the mute set becomes the true conditions, of which the selection then finds none. -/
theorem silenceMutesTrueConditions : Obligations.SilenceMutesTrueConditions := by
  refine ⟨Conditions.code_eq, fun s item hears => ?_⟩
  obtain ⟨t, run, own, others, aliveA, aliveB, deck, permits, sounder⟩ := silence_answers (item := item) hears
  have same : t.SameDeck s := deck
  have conditions : t.conditions = s.conditions := by rw [deck]; rfl
  have silent : t.sounder = ⟨none, if s.sounder.playing = none then s.sounder.positionMs else 0, s.conditions⟩ := by
    rw [sounder, Sounder.reselect_of_all_muted _ (by rw [conditions, State.silenced_eq]), conditions]
    rfl
  exact ⟨t, run, silent, by rw [silent]; rfl, same, permits, aliveA, aliveB, own, others⟩

end

section
/-! SUPPORT. COUNTERS page 0 (R162), and DIAGNOSE with what a look at the two memories finds (R163 to R165, R167). -/

namespace Sys2Proof.Machine

variable {s : State}

/-! ### COUNTERS page 0 -/

/-- A page of port counters is read off the four ports in the order of their numbers. -/
theorem State.portCounterBytes_eq (s : State) : s.portCounterBytes =
    [Port.stationA, .stationB, .feed].flatMap (fun q => (s.port q).counters.bytes) ++
      (s.port .console).counters.bytes := by
  simp [State.portCounterBytes, Port.all]

/-- The counters as a good frame on port 4 finds them, its own counted (R154). -/
theorem State.portCounterBytes_afterFrame (s : State) :
    (s.withLink (s.linkAfterFrame .console)).portCounterBytes =
      [Port.stationA, .stationB, .feed].flatMap (fun q => (s.port q).counters.bytes) ++
        PortCounters.bytes { (s.port .console).counters with good := sat16 ((s.port .console).counters.good + 1) } := by
  simp [State.portCounterBytes_eq, State.withLink_linkAfterFrame_port]

theorem State.clearPortCounters_port (s : State) (p : Port) :
    s.clearPortCounters.port p = { s.port p with counters := PortCounters.zero } := by
  simp [State.clearPortCounters, State.port]

/-- The link after COUNTERS page 0: the counters cleared, and the answer that gives them as the frame has left them. -/
def State.linkAfterClear (s : State) : Link :=
  ((s.withLink (s.linkAfterFrame .console)).clearPortCounters.setReceiver .console
    (.answering ⟨.accept, 0x60, (s.withLink (s.linkAfterFrame .console)).portCounterBytes⟩)).link

theorem State.withLink_linkAfterClear_port (s : State) (p : Port) :
    (s.withLink s.linkAfterClear).port p =
      if p = .console then { s.port .console with
        counters := PortCounters.zero
        receiver := .answering ⟨.accept, 0x60, (s.withLink (s.linkAfterFrame .console)).portCounterBytes⟩ }
      else { s.port p with counters := PortCounters.zero } := by
  refine (State.port_setPort _ .console p _).trans ?_
  by_cases own : p = .console
  · simp only [if_pos own, State.clearPortCounters_port, State.withLink_linkAfterFrame_port, if_pos]
  · simp only [if_neg own, State.clearPortCounters_port, State.withLink_linkAfterFrame_port]

theorem State.linkAfterClear_alive (s : State) :
    s.linkAfterClear.aliveA = s.aliveA ∧ s.linkAfterClear.aliveB = s.aliveB := by
  unfold State.linkAfterClear
  exact ⟨rfl, rfl⟩

theorem exec_countersReadClear {item : Item} (hears : s.Hears .console) :
    exec (.countersReadClear .console item []) s = .next (s.withLink s.linkAfterClear).settle := by
  have row : exec (.countersReadClear .console item []) s = request .counters .console 1 serveCountersReadClear s := rfl
  rw [row, request_hears s .counters .console 1 _ hears (by decide), State.take_cases, State.goodFrame_setReceiver]
  rfl

/-- An event on the link alone leaves the deck, with its outputs driven again. -/
theorem State.withLink_settle_sameDeck (s : State) (l : Link) :
    (s.withLink l).settle.SameDeck s ∧ (s.withLink l).settle.OutputsFrom s := ⟨rfl, ⟨rfl, rfl⟩, rfl⟩

/-! ### What a look at a memory finds -/

theorem Retained.checkGood_iff (m : Retained) : m.checkGood = true ↔ m.check = m.formed := beq_iff_eq

theorem Store.checkGood_iff (m : Store) : m.checkGood = true ↔ m.check = m.contents.formed := beq_iff_eq

/-! ### DIAGNOSE -/

theorem ProbeState.code_eq (x : ProbeState) : x.code = match x with | .new => 0 | .good => 1 | .fault => 2 := by
  cases x <;> rfl

theorem SounderLoad.code_eq (x : SounderLoad) :
    SounderLoad.code x = match x with | .present => 0 | .openCircuit => 1 | .shorted => 2 := by
  cases x <;> rfl

theorem flag_bne {α : Type} [BEq α] [LawfulBEq α] [DecidableEq α] (x y : α) (weight : Nat) :
    flag (x != y) weight = if x = y then 0 else weight := by
  by_cases h : x = y <;> simp [flag, h]

/-- The PERMIT contact of a running deck. -/
theorem State.permitOn_of_running (running : s.phase = .running) (st : Station) :
    s.permitOn st = (decide ((s.mode = .rise ∨ s.mode = .crawl) ∧ s.holds = []) && s.alive st) := by
  rw [Bool.eq_iff_iff]
  simp [State.permitOn, running, Mode.moving_iff]

/-- The deck after a DIAGNOSE: what it found bad stays bad, and a bad retained check has the sequence run (R164). -/
def State.diagnosed (s : State) (seen : Findings) : State :=
  { s with
    retained := s.retained.found seen.retainedIntact
    store := s.store.found seen.storeIntact
    afterAnswer := if s.retained.checkGood && seen.retainedIntact then s.afterAnswer else .retainedLoss }

theorem serveDiagnose_eq (s : State) (seen : Findings) :
    serveDiagnose seen s = (s.diagnosed seen, .accept (s.diagnoseBytes seen)) := by
  have good : s.retainedMatches seen.retainedIntact = (s.retained.checkGood && seen.retainedIntact) := Bool.and_comm ..
  rw [serveDiagnose, State.diagnosed, good]
  cases s.retained.checkGood && seen.retainedIntact <;> rfl

/-- A frame on port 4 keeps no station port alive. -/
theorem State.permitOn_afterFrame (s : State) (st : Station) :
    (s.withLink (s.linkAfterFrame .console)).permitOn st = s.permitOn st := by
  cases st <;> rfl

theorem State.diagnoseBytes_afterFrame (s : State) (seen : Findings) :
    (s.withLink (s.linkAfterFrame .console)).diagnoseBytes seen = s.diagnoseBytes seen := by
  rw [State.diagnoseBytes, State.permitOn_afterFrame, State.permitOn_afterFrame]
  rfl

theorem diagnose_answers {item : Item} {seen : Findings} (hears : s.Hears .console) :
    Answered (.diagnose .console item [] seen) .console ⟨.accept, 0x5F, s.diagnoseBytes seen⟩ s (s.diagnosed seen) := by
  have served : serveDiagnose seen (s.withLink (s.linkAfterFrame .console)) =
      (((s.diagnosed seen).withLink (s.linkAfterFrame .console)).withPermits s.permitA s.permitB,
        .accept (s.diagnoseBytes seen)) := by
    rw [serveDiagnose_eq, State.diagnoseBytes_afterFrame]
    rfl
  exact request_answers_after hears rfl rfl rfl served rfl

end Sys2Proof.Machine

open Sys2Proof Sys2Proof.Machine

/-- Settles O44: the counters are read with the frame counted and then cleared, port by port. -/
theorem countersPageZeroClears : Obligations.CountersPageZeroClears := by
  intro s item hears
  obtain ⟨aliveA, aliveB⟩ := s.linkAfterClear_alive
  obtain ⟨deck, outputs⟩ := s.withLink_settle_sameDeck s.linkAfterClear
  refine ⟨_, exec_countersReadClear hears, deck, outputs, aliveA, aliveB, fun p other => ?_, ?_⟩
  · exact (s.withLink_linkAfterClear_port p).trans (if_neg other)
  · refine (s.withLink_linkAfterClear_port .console).trans ((if_pos rfl).trans ?_)
    rw [State.portCounterBytes_afterFrame]
    rfl

/-- Settles O45: what a look finds of each memory, then the answer byte by byte. -/
theorem diagnoseAnswersWhatItFinds : Obligations.DiagnoseAnswersWhatItFinds := by
  refine ⟨fun m => ⟨rfl, m.checkGood_iff, rfl, rfl, rfl, m.spoil_checkGood⟩,
    fun m => ⟨m.checkGood_iff, rfl, rfl, rfl, m.spoil_checkGood⟩, fun _ => rfl, fun s item seen hears => ?_⟩
  intro retainedGood storeGood drivenA drivenB bit
  have answered := diagnose_answers (item := item) (seen := seen) hears
  have retained : s.retainedMatches seen.retainedIntact = retainedGood := Bool.and_comm ..
  have store : s.storeMatches seen.storeIntact = storeGood := Bool.and_comm ..
  have contactA : s.permitOn .A = drivenA := State.permitOn_of_running hears.1 .A
  have contactB : s.permitOn .B = drivenB := State.permitOn_of_running hears.1 .B
  rw [State.diagnoseBytes] at answered
  simp only [retained, store, contactA, contactB, flag_bne, ProbeState.code_eq, SounderLoad.code_eq] at answered
  exact answered

end

section
/-! SUPPORT. The deck-wide values of DECK SUMMARY (R65 to R67, R78, R81, R160), and what IDENTITY, HOLD LIST and COUNTERS
answer (R122, R155, R162). -/

namespace Sys2Proof.Machine

variable {s : State}

/-! ### Heights of the deck (R65, R66) -/

/-- A table read entry by entry. -/
theorem toList_eq_map_finRange {α : Type} {n : Nat} (table : Vector α n) :
    table.toList = (List.finRange n).map fun i => table[i] := by
  apply List.ext_getElem <;> simp

theorem mem_filterMap_toList {α β : Type} {n : Nat} (table : Vector α n) (pick : α → Option β) (x : β) :
    x ∈ table.toList.filterMap pick ↔ ∃ i : Fin n, pick table[i] = some x := by
  simp [toList_eq_map_finRange]

/-- A height of the level-bearing set is that of one of its jacks. -/
theorem State.mem_levelHeights (s : State) (m : Nat) :
    m ∈ s.levelHeights ↔ ∃ j : JackIx,
      (s.jack j).live.state ∈ [JackState.ready, .granted, .stalled, .slip, .rodEnd] ∧ (s.jack j).live.height = m := by
  rw [State.levelHeights, mem_filterMap_toList]
  refine exists_congr fun j => ?_
  rw [Option.ite_none_right_eq_some, Option.some.injEq, Jack.levelBearing, JackState.levelBearing_iff]
  rfl

theorem State.forall_levelHeights (s : State) (p : Nat → Prop) :
    (∀ m ∈ s.levelHeights, p m) ↔ ∀ j : JackIx,
      (s.jack j).live.state ∈ [JackState.ready, .granted, .stalled, .slip, .rodEnd] → p (s.jack j).live.height := by
  simp only [State.mem_levelHeights]
  exact ⟨fun all j bears => all _ ⟨j, bears, rfl⟩, fun all m ⟨j, bears, height⟩ => height ▸ all j bears⟩

theorem State.hMin_eq_some_iff (s : State) (m : Nat) :
    s.hMin = some m ↔ m ∈ s.levelHeights ∧ ∀ x ∈ s.levelHeights, m ≤ x := List.min?_eq_some_iff

theorem State.hMax_eq_some_iff (s : State) (m : Nat) :
    s.hMax = some m ↔ m ∈ s.levelHeights ∧ ∀ x ∈ s.levelHeights, x ≤ m := List.max?_eq_some_iff

theorem State.spread_eq_some_iff (s : State) (d : Nat) :
    s.spread = some d ↔ ∃ lo hi, s.hMin = some lo ∧ s.hMax = some hi ∧ d = hi - lo := by
  unfold State.spread
  cases s.hMin <;> cases s.hMax <;> simp [eq_comm]

/-! ### The considered sectors (R78) -/

/-- A considered sector has a ceiling. -/
theorem State.exists_dMax_of_considered {k : SectorIx} (considered : s.considered k = true) : ∃ d, s.dMax k = some d := by
  rw [State.considered, Bool.and_eq_true] at considered
  exact ⟨_, if_pos considered.1⟩

/-- R78 at one sector: it takes the place of a sector with a higher D_max. -/
def State.lowerDMax (s : State) : Option (Int × SectorIx) → SectorIx → Option (Int × SectorIx)
  | best, k =>
    match s.dMax k, best with
    | some d, some (b, i) => if d < b then some (d, k) else some (b, i)
    | some d, none => some (d, k)
    | none, b => b

theorem State.lowestDMax_eq (s : State) : s.lowestDMax = s.consideredSectors.foldl s.lowerDMax none := rfl

/-- What leads after some considered sectors in ascending order: none before the first, and then one of them that no
other undercuts, nor an earlier one equals. -/
def State.LeadsDMax (s : State) (passed : List SectorIx) : Option (Int × SectorIx) → Prop
  | none => passed = []
  | some (d, k) => k ∈ passed ∧ s.dMax k = some d ∧
      ∀ i ∈ passed, ∀ e, s.dMax i = some e → d < e ∨ d = e ∧ k ≤ i

theorem State.leadsDMax_snoc {passed : List SectorIx} {best : Option (Int × SectorIx)} {k : SectorIx} {d : Int}
    (leads : s.LeadsDMax passed best) (behind : ∀ i ∈ passed, i < k) (ceiling : s.dMax k = some d) :
    s.LeadsDMax (passed ++ [k]) (s.lowerDMax best k) := by
  have own : ∀ e, s.dMax k = some e → e = d := fun e h => Option.some.inj (h.symm.trans ceiling)
  cases best with
  | none =>
    obtain rfl : passed = [] := leads
    have first : s.lowerDMax none k = some (d, k) := by simp only [State.lowerDMax, ceiling]
    rw [first]
    refine ⟨List.mem_singleton_self k, ceiling, fun i hi e he => ?_⟩
    obtain rfl := List.mem_singleton.mp hi
    exact .inr ⟨(own e he).symm, le_rfl⟩
  | some lead =>
    obtain ⟨b, i⟩ := lead
    obtain ⟨listed, bound, least⟩ := leads
    have next : s.lowerDMax (some (b, i)) k = if d < b then some (d, k) else some (b, i) := by
      simp only [State.lowerDMax, ceiling]
    rw [next]
    by_cases lower : d < b
    · rw [if_pos lower]
      refine ⟨by simp, ceiling, fun x hx e he => ?_⟩
      rcases List.mem_append.mp hx with old | new
      · exact .inl ((least x old e he).elim lower.trans fun ⟨equal, _⟩ => equal ▸ lower)
      · obtain rfl := List.mem_singleton.mp new
        exact .inr ⟨(own e he).symm, le_rfl⟩
    · rw [if_neg lower]
      refine ⟨List.mem_append_left _ listed, bound, fun x hx e he => ?_⟩
      rcases List.mem_append.mp hx with old | new
      · exact least x old e he
      · obtain rfl := List.mem_singleton.mp new
        rw [own e he]
        exact (not_lt.mp lower).lt_or_eq.imp_right fun equal => ⟨equal, (behind i listed).le⟩

theorem State.leadsDMax_foldl {ks passed : List SectorIx} {best : Option (Int × SectorIx)}
    (leads : s.LeadsDMax passed best) (ascending : (passed ++ ks).Pairwise (· < ·))
    (ceilings : ∀ k ∈ ks, ∃ d, s.dMax k = some d) : s.LeadsDMax (passed ++ ks) (ks.foldl s.lowerDMax best) := by
  induction ks generalizing passed best with
  | nil => rwa [List.append_nil]
  | cons k ks ih =>
    obtain ⟨⟨d, ceiling⟩, rest⟩ := List.forall_mem_cons.mp ceilings
    have behind : ∀ i ∈ passed, i < k := fun i hi =>
      (List.pairwise_append.mp ascending).2.2 i hi k List.mem_cons_self
    rw [List.append_cons] at ascending ⊢
    exact ih (State.leadsDMax_snoc leads behind ceiling) ascending rest

theorem State.mem_consideredSectors (s : State) (k : SectorIx) : k ∈ s.consideredSectors ↔ s.considered k = true := by
  simp [State.consideredSectors]

theorem State.leadsDMax_lowestDMax (s : State) : s.LeadsDMax s.consideredSectors s.lowestDMax :=
  State.leadsDMax_foldl (passed := []) rfl ((List.pairwise_lt_finRange 24).filter _) fun k hk =>
    State.exists_dMax_of_considered ((s.mem_consideredSectors k).mp hk)

theorem State.lowestDMax_eq_none_iff (s : State) : s.lowestDMax = none ↔ ∀ k, s.considered k = false := by
  have leads := s.leadsDMax_lowestDMax
  have empty : s.consideredSectors = [] ↔ ∀ k, s.considered k = false := by
    simp [State.consideredSectors, List.filter_eq_nil_iff]
  rw [← empty]
  constructor
  · intro none
    rwa [none] at leads
  · intro none
    rw [State.lowestDMax_eq, none, List.foldl_nil]

/-- The lowest D_max of the considered sectors, at the lowest index that has it. -/
theorem State.lowestDMax_eq_some_iff (s : State) (d : Int) (k : SectorIx) :
    s.lowestDMax = some (d, k) ↔ s.considered k = true ∧ s.dMax k = some d ∧
      ∀ i e, s.considered i = true → s.dMax i = some e → d < e ∨ d = e ∧ k ≤ i := by
  have leads := s.leadsDMax_lowestDMax
  constructor
  · intro lead
    rw [lead] at leads
    obtain ⟨listed, ceiling, least⟩ := leads
    exact ⟨(s.mem_consideredSectors k).mp listed, ceiling, fun i e hi =>
      least i ((s.mem_consideredSectors i).mpr hi) e⟩
  · rintro ⟨considered, ceiling, least⟩
    have listed := (s.mem_consideredSectors k).mpr considered
    cases lead : s.lowestDMax with
    | none => simp [s.lowestDMax_eq_none_iff.mp lead k] at considered
    | some best =>
      obtain ⟨b, i⟩ := best
      rw [lead] at leads
      obtain ⟨listed', ceiling', least'⟩ := leads
      have here := least' k listed d ceiling
      have there := least i b ((s.mem_consideredSectors i).mp listed') ceiling'
      obtain rfl : b = d := le_antisymm (here.elim le_of_lt fun h => h.1.le) (there.elim le_of_lt fun h => h.1.le)
      rw [le_antisymm (here.resolve_left (lt_irrefl _)).2 (there.resolve_left (lt_irrefl _)).2]

theorem State.starvedCount_eq (s : State) :
    s.starvedCount = ((List.finRange 24).filter fun k => s.considered k && s.fillStarved k).length := by
  simp only [State.starvedCount, State.consideredSectors, List.filter_filter, Bool.and_comm]

theorem any_finRange_iff {n : Nat} (test : Fin n → Bool) : (List.finRange n).any test = true ↔ ∃ i, test i = true := by
  simp

/-! ### Live grants (R81) -/

theorem State.liveGrants_eq (s : State) (st : Station) : s.liveGrants st =
    ((List.finRange 96).filter fun j : JackIx => (s.grant? j).any fun g => g.station == st).length := by
  rw [State.liveGrants, toList_eq_map_finRange, List.filter_map, List.length_map]
  rfl

/-! ### Codes -/

theorem Qualifier.codes_eq (q : Qualifier) : (q.kindCode, q.indexCode) =
    match q with | .none => (0, 0xFF) | .jack j => (1, j.val) | .sector k => (2, k.val) := by
  cases q <;> rfl

theorem Config.designRevision_mem : 1 ≤ Config.designRevision ∧ Config.designRevision ≤ 255 :=
  ⟨Nat.succ_pos _, Config.revisionIndex.isLt⟩

/-! ### The answers -/

section Answers

variable {p : Port} {item : Item} {page : Byte} {reply : Reply} {a : Answer}

theorem deckSummary_answers (hears : s.Hears p) :
    Answered (.deckSummary p item []) p ⟨.accept, 0x10, s.summaryBytes⟩ s s :=
  request_answers (serve := serveDeckSummary) (fun _ _ => rfl) hears rfl rfl rfl rfl

theorem serveHoldList_linkBlind (payload : List Byte) : LinkBlind (serveHoldList payload) :=
  fun _ _ => ite_withLink Iff.rfl rfl rfl

theorem holdList_answers (hears : s.Hears p) (served : serveHoldList [page] s = (s, reply))
    (answer : reply.answer? 0x42 = some a) : Answered (.holdList p item [page]) p a s s :=
  request_answers (serveHoldList_linkBlind [page]) hears rfl rfl served answer

/-- IDENTITY reads its port's speed, which its own frame leaves alone. -/
theorem identity_answers (hears : s.Hears p) :
    Answered (.identity p item []) p ⟨.accept, 0x16, s.identityBytes p⟩ s s := by
  have speed : ((s.withLink (s.linkAfterFrame p)).port p).speed = (s.port p).speed := by
    rw [State.withLink_linkAfterFrame_port, if_pos rfl]
  have served : serveIdentity p (s.withLink (s.linkAfterFrame p)) =
      ((s.withLink (s.linkAfterFrame p)).withPermits s.permitA s.permitB, .accept (s.identityBytes p)) := by
    rw [serveIdentity, State.identityBytes, speed]
    rfl
  exact request_answers_after hears rfl rfl rfl served rfl

theorem counters_answers (hears : s.Hears .console)
    (served : serveCounters [page] (s.withLink (s.linkAfterFrame .console)) =
      (s.withLink (s.linkAfterFrame .console), reply))
    (answer : reply.answer? 0x60 = some a) : Answered (.counters .console item [page]) .console a s s :=
  request_answers_after (x := s.permitA) (y := s.permitB) hears rfl rfl rfl served answer

end Answers

theorem serveCounters_bad_page {page : Byte} (high : 2 < page.toNat) (s : State) :
    serveCounters [page] s = (s, .refuse .range 1) := by
  unfold serveCounters
  have read : u8At [page] 0 = page.toNat := rfl
  split
  case h_1 | h_2 | h_3 => omega
  case h_4 => rfl

end Sys2Proof.Machine

open Sys2Proof Sys2Proof.Machine

/-- Settles O15: the deck-wide values one by one, the codes, and each answer byte by byte. -/
theorem summaryIdentityListAndCountersAnswer : Obligations.SummaryIdentityListAndCountersAnswer := by
  refine ⟨fun s => ⟨fun m => ?_, fun m => ?_, s.spread_eq_some_iff, State.levelAlert_iff, s.considered_iff,
      s.lowestDMax_eq_none_iff, s.lowestDMax_eq_some_iff, s.starvedCount_eq, any_finRange_iff _, any_finRange_iff _,
      any_finRange_iff _, State.probeCondition_iff, State.anyStall_iff, s.liveGrants_eq⟩,
    rfl, rfl, rfl, Qualifier.codes_eq, Config.designRevision_mem.1, Config.designRevision_mem.2,
    fun p item page s hears high => ⟨?_, ?_⟩, fun p item s hears => ⟨?_, ?_, fun page low => ?_, ?_⟩⟩
  · rw [State.hMin_eq_some_iff, State.mem_levelHeights, State.forall_levelHeights]
  · rw [State.hMax_eq_some_iff, State.mem_levelHeights, State.forall_levelHeights]
  · exact holdList_answers hears (if_pos high) rfl
  · rintro rfl
    exact counters_answers hears (serveCounters_bad_page high _) rfl
  · exact deckSummary_answers hears
  · exact identity_answers hears
  · exact holdList_answers hears (if_neg (Nat.not_lt.mpr low)) rfl
  · rintro rfl
    refine ⟨counters_answers hears rfl rfl, counters_answers hears rfl ?_⟩
    rw [State.portCounterBytes_afterFrame]
    rfl

end

section
/-! SUPPORT. What an event does to the two memories, said once for each shared operation and each serving rule (R165,
R167). An event leaves a memory alone (`Aside`, `Unwritten`) up to its end, where it writes the live deck by `commit` or
`rewrite`; such events, one after another, are `Retains`. -/

namespace Sys2Proof.Machine

variable {s t u : State} {p : Port}

/-! ### The copy of the live deck -/

/-- Retained memory mirrors the deck when its contents are the copy that a write would make. -/
theorem State.retainedMirrors_iff : s.RetainedMirrors ↔ s.retained.toRetainedCopy = s.liveCopy := by
  constructor
  · rintro ⟨jacks, sectors, free, holds, entry, serial, counters⟩
    calc s.retained.toRetainedCopy
        = ⟨s.retained.jacks, s.retained.sectors, s.retained.freeList, s.retained.holds, s.retained.crawlEntry,
            s.retained.planSerial, s.retained.counters, s.retained.stamp, s.retained.counter, s.retained.runMark⟩ := rfl
      _ = s.liveCopy := by rw [jacks, sectors, free, holds, entry, serial, counters]; rfl
  · intro copy
    exact ⟨congrArg RetainedCopy.jacks copy, congrArg RetainedCopy.sectors copy, congrArg RetainedCopy.freeList copy,
      congrArg RetainedCopy.holds copy, congrArg RetainedCopy.crawlEntry copy, congrArg RetainedCopy.planSerial copy,
      congrArg RetainedCopy.counters copy⟩

/-! ### Events that write no memory -/

/-- The memories hold what they held, whatever became of the deck. -/
structure Unwritten (s t : State) : Prop where
  retained : t.retained = s.retained
  contents : t.store.contents = s.store.contents

theorem Unwritten.refl (s : State) : Unwritten s s := ⟨rfl, rfl⟩

theorem Unwritten.trans (h : Unwritten s t) (h' : Unwritten t u) : Unwritten s u :=
  ⟨h'.retained.trans h.retained, h'.contents.trans h.contents⟩

/-! Each shared operation that changes the deck alone, after an event that has written no memory. -/

theorem Unwritten.retireSector (h : Unwritten s t) (k : SectorIx) : Unwritten s (t.retireSector k) := by
  rcases t.retireSector_cases k with e | ⟨_, _, _, e⟩ <;> rw [e] <;> exact ⟨h.retained, h.contents⟩

theorem Unwritten.retireSectors (h : Unwritten s t) (ks : List SectorIx) : Unwritten s (t.retireSectors ks) :=
  State.retireSectors_induction (P := Unwritten s) (fun _ k h => h.retireSector k) ks t h

theorem Unwritten.placePart (h : Unwritten s t) (a : HoldSource) (r : HoldReason) (q : Qualifier) :
    Unwritten s (t.placePart a r q) := by
  rcases t.placePart_cases a r q with ⟨_, e⟩ | ⟨_, e⟩ <;> rw [e] <;> exact ⟨h.retained, h.contents⟩

theorem Unwritten.placeExposed (h : Unwritten s t) : Unwritten s t.placeExposed := by
  rcases t.placeExposed_cases with e | ⟨_, _, _, e⟩ <;> rw [e] <;> exact ⟨h.retained, h.contents⟩

theorem Unwritten.placeCrawlLimit (h : Unwritten s t) : Unwritten s t.placeCrawlLimit := by
  rcases t.placeCrawlLimit_cases with e | ⟨_, _, e⟩ <;> rw [e] <;> exact ⟨h.retained, h.contents⟩

theorem Unwritten.crawlAfter (h : Unwritten s t) (before : Option Nat) : Unwritten s (t.crawlAfter before) := by
  rcases t.crawlAfter_cases before with e | ⟨_, _, e⟩ <;> rw [e] <;> exact ⟨h.retained, h.contents⟩

theorem Unwritten.passMode (h : Unwritten s t) : Unwritten s t.passMode := by
  rcases t.passMode_cases with ⟨_, e⟩ | ⟨_, e⟩ <;> rw [e] <;> exact ⟨h.retained, h.contents⟩

theorem Unwritten.deriveMode (h : Unwritten s t) : Unwritten s t.deriveMode := ⟨h.retained, h.contents⟩

theorem Unwritten.setJack (h : Unwritten s t) (j : JackIx) (x : Jack) : Unwritten s (t.setJack j x) :=
  ⟨h.retained, h.contents⟩

theorem Unwritten.setLive (h : Unwritten s t) (j : JackIx) (v : JackLive) : Unwritten s (t.setLive j v) :=
  h.setJack ..

theorem Unwritten.setGrant (h : Unwritten s t) (j : JackIx) (g : Option Grant) : Unwritten s (t.setGrant j g) :=
  ⟨h.retained, h.contents⟩

theorem Unwritten.count (h : Unwritten s t) (f : DeckCounters → DeckCounters) : Unwritten s (t.count f) :=
  ⟨h.retained, h.contents⟩

theorem Unwritten.setSector (h : Unwritten s t) (k : SectorIx) (x : Sector) : Unwritten s (t.setSector k x) :=
  ⟨h.retained, h.contents⟩

theorem Unwritten.setSectorLive (h : Unwritten s t) (k : SectorIx) (v : SectorLive) :
    Unwritten s (t.setSectorLive k v) :=
  h.setSector ..

theorem Unwritten.refreshAll (h : Unwritten s t) : Unwritten s t.refreshAll := ⟨h.retained, h.contents⟩

theorem Unwritten.deliver (h : Unwritten s t) (k : SectorIx) (n : Nat) : Unwritten s (t.deliver k n) := by
  rcases t.deliver_cases k n with e | e <;> rw [e]
  · exact h.setSectorLive ..
  · exact (h.setSectorLive ..).retireSector k

theorem Unwritten.interval (h : Unwritten s t) (inc : State → SectorIx → Nat) : Unwritten s (t.interval inc) :=
  State.interval_induction (P := Unwritten s) t (fun _ k n h => h.deliver k n) inc h

theorem Unwritten.credit (h : Unwritten s t) (n : Nat) : Unwritten s (t.credit n) :=
  State.credit_induction (P := Unwritten s) t (fun _ inc h => h.interval inc) h n

theorem Unwritten.setSpeeds (h : Unwritten s t) (speeds : Vector Speed 4) : Unwritten s (t.setSpeeds speeds) := by
  unfold State.setSpeeds
  generalize Port.all = ps
  induction ps generalizing t with
  | nil => exact h
  | cons p ps ih => exact ih ⟨h.retained, h.contents⟩

/-! ### Events that touch nothing of what retained memory keeps -/

/-- An event that leaves the deck as retained memory keeps it, and both memories, as they are. -/
structure Aside (s t : State) : Prop extends Unwritten s t where
  live : t.liveCopy = s.liveCopy

theorem Aside.refl (s : State) : Aside s s := ⟨.refl s, rfl⟩

theorem Aside.trans (h : Aside s t) (h' : Aside t u) : Aside s u :=
  ⟨h.toUnwritten.trans h'.toUnwritten, h'.live.trans h.live⟩

theorem Aside.setPort (s : State) (p : Port) (x : PortRec) : Aside s (s.setPort p x) := ⟨⟨rfl, rfl⟩, rfl⟩

theorem Aside.settle (s : State) : Aside s s.settle := ⟨⟨rfl, rfl⟩, rfl⟩

theorem Aside.setAlive (s : State) (st : Station) (x : Option Nat) : Aside s (s.setAlive st x) := by
  cases st <;> exact ⟨⟨rfl, rfl⟩, rfl⟩

theorem Aside.goodFrame (s : State) (p : Port) : Aside s (s.goodFrame p) := by
  rw [State.goodFrame_eq]
  exact ⟨⟨rfl, rfl⟩, rfl⟩

theorem Aside.respond (s : State) (p : Port) (code : Byte) (r : Reply) : Aside s (s.respond p code r) := by
  obtain ⟨x, e, -⟩ := s.respond_cases p code r
  rw [e]
  exact .setPort ..

theorem Aside.lengthDiscard (s : State) (p : Port) : Aside s (s.lengthDiscard p) := by
  rcases s.lengthDiscard_cases p with ⟨_, _, e⟩ | ⟨_, _, e⟩ <;> rw [e]
  · exact .refl s
  · exact .setPort ..

theorem Aside.overrunDiscard (s : State) (p : Port) : Aside s (s.overrunDiscard p) := by
  rw [State.overrunDiscard_eq]
  exact .setPort ..

theorem Aside.checkFail (s : State) (p : Port) (code : Byte) (formed : Nat) : Aside s (s.checkFail p code formed) :=
  (Aside.setPort ..).trans (.setPort ..)

theorem Aside.gapDiscard (s : State) (p : Port) (r : Receiver) : Aside s (s.gapDiscard p r) :=
  (Aside.setPort ..).trans (.setPort ..)

/-- A stop may leave the store's check bad; its contents stay (R168). -/
theorem Aside.halt (s : State) (ph : Phase) : Aside s (s.halt ph) := by
  refine Aside.trans ?_ (.settle _)
  rcases s.abortStore_cases with e | e <;> rw [e] <;> exact ⟨⟨rfl, rfl⟩, rfl⟩

theorem Aside.answerLeft (s : State) (p : Port) : Aside s (s.answerLeft p) := by
  have opened : Aside s (s.reopen p) := .setPort ..
  unfold State.answerLeft
  split
  · split
    · unfold State.afterConsole
      split
      · exact opened
      · exact opened.trans (.halt ..)
      · exact opened.trans (.halt ..)
    · exact opened
  all_goals exact .refl s

/-- The LINE entry comes and goes without retained memory, which leaves it out (R165). -/
theorem Aside.placeLine (s : State) : Aside s (s.placePart .line .line .none) := by
  rcases s.placePart_cases .line .line .none with ⟨_, e⟩ | ⟨_, e⟩ <;> rw [e]
  · exact .refl s
  · exact ⟨⟨rfl, rfl⟩, by simp [State.liveCopy]⟩

theorem Aside.dropLine (s : State) : Aside s (s.dropReason .line) :=
  ⟨⟨rfl, rfl⟩, by simp [State.liveCopy, State.dropReason, List.filter_filter]⟩

theorem Aside.decideLine (s : State) : Aside s s.decideLine := by
  have decided : Aside s { s with holdTimer := false, holdFilter := if s.holdLow then .asserted else .negated } :=
    ⟨⟨rfl, rfl⟩, rfl⟩
  unfold State.decideLine
  dsimp only
  split
  · exact decided
  · exact decided.trans (.dropLine _)
  · exact decided.trans (.placeLine _)
  · exact decided.trans (.placeLine _)
  · exact decided
  · exact decided

/-! ### Events that end with a write -/

/-- An event through which retained memory goes on mirroring the deck, with a check formed over what the event has
written, and which leaves the store's contents alone. -/
structure Retains (s t : State) : Prop where
  mirrors : s.RetainedMirrors → t.RetainedMirrors
  check : t.retained.checkGood = true ∨ t.retained = s.retained
  contents : t.store.contents = s.store.contents

theorem Retains.trans (h : Retains s t) (h' : Retains t u) : Retains s u where
  mirrors := h'.mirrors ∘ h.mirrors
  check := by
    rcases h'.check with good | same
    · exact .inl good
    · rw [same]
      exact h.check
  contents := h'.contents.trans h.contents

theorem Aside.retains (h : Aside s t) : Retains s t where
  mirrors m := by
    rw [State.retainedMirrors_iff] at m ⊢
    rw [h.retained, h.live, m]
  check := .inr h.retained
  contents := h.contents

theorem Retains.refl (s : State) : Retains s s := (Aside.refl s).retains

/-- A change of the deck, kept in retained memory at its end (R165). -/
theorem Unwritten.commit (h : Unwritten s t) : Retains s t.commit where
  mirrors _ := t.commit_retainedMirrors
  check := t.commit_checkGood.imp_right fun same => same.2.trans h.retained
  contents := h.contents

/-- A write of the whole deck, with a new check. -/
theorem Retains.rewrite (contents : t.store.contents = s.store.contents) : Retains s t.rewrite where
  mirrors _ := t.rewrite_retainedMirrors
  check := .inl t.rewrite_checkGood
  contents := contents

end Sys2Proof.Machine
end

section
/-! SUPPORT. The serving rules of section 8.4 keep retained memory with the deck (R165); DIAGNOSE alone may
find it lost. -/

namespace Sys2Proof.Machine

variable {s t u : State} {p : Port}

/-! ### Jacks, sectors and layers (chapters 1 and 2) -/

theorem serveJackDefine_retains (item : Item) (payload : List Byte) : Retains s (serveJackDefine item payload s).1 := by
  unfold serveJackDefine
  split
  · exact .refl s
  · split
    · exact .refl s
    · split_ifs
      · exact .refl s
      · exact .refl s
      · exact .refl s
      · exact ((((Unwritten.refl s).setJack ..).retireSectors _).placeExposed).passMode.commit

theorem serveJackUndefine_retains (item : Item) : Retains s (serveJackUndefine item s).1 := by
  unfold serveJackUndefine
  split
  · exact .refl s
  · split_ifs
    · exact .refl s
    · exact .refl s
    · exact (((Unwritten.refl s).setJack ..).retireSectors _).passMode.commit

theorem serveJackDefineAny_retains (item : Item) (payload : List Byte) :
    Retains s (serveJackDefineAny item payload s).1 := by
  unfold serveJackDefineAny
  split
  · exact serveJackDefine_retains item payload
  · exact serveJackUndefine_retains item
  · split <;> exact .refl s

theorem Retains.surveyJack (s : State) (j : JackIx) (height : Nat) : Retains s (s.surveyJack j height) := by
  unfold State.surveyJack
  dsimp only
  split
  · exact .refl s
  · exact (((((Unwritten.refl s).setJack ..).retireSectors _).placeExposed).crawlAfter _).passMode.commit

theorem serveSurvey_retains (item : Item) (payload : List Byte) : Retains s (serveSurvey item payload s).1 := by
  unfold serveSurvey
  dsimp only
  split
  · exact .refl s
  · split_ifs
    · exact .refl s
    · exact .refl s
    · exact .refl s
    · exact .refl s
    · exact .surveyJack ..

theorem Retains.setLive (s : State) (j : JackIx) (v : JackLive) : Retains s (s.setLive j v).commit :=
  ((Unwritten.refl s).setLive ..).commit

theorem serveRodExtend_retains (item : Item) (payload : List Byte) : Retains s (serveRodExtend item payload s).1 := by
  unfold serveRodExtend
  dsimp only
  split
  · exact .refl s
  · split
    · exact .refl s
    · exact .setLive ..

theorem serveJackExclude_retains (item : Item) : Retains s (serveJackExclude item s).1 := by
  unfold serveJackExclude
  dsimp only
  split
  · exact .refl s
  · split_ifs
    · exact .refl s
    · exact .refl s
    · exact ((((Unwritten.refl s).setLive ..).retireSectors _).crawlAfter _).commit

theorem serveJackInclude_retains (item : Item) : Retains s (serveJackInclude item s).1 := by
  unfold serveJackInclude
  dsimp only
  split
  · exact .refl s
  · split_ifs
    · exact .refl s
    · exact .refl s
    · exact (((Unwritten.refl s).setLive ..).retireSectors _).placeExposed.commit

theorem serveJackClear_retains (item : Item) : Retains s (serveJackClear item s).1 := by
  unfold serveJackClear
  dsimp only
  split
  · exact .refl s
  · split_ifs
    · exact .refl s
    · exact .refl s
    · exact .setLive ..

theorem serveJackSet_retains (item : Item) (payload : List Byte) : Retains s (serveJackSet item payload s).1 := by
  unfold serveJackSet
  split
  · exact serveJackExclude_retains item
  · exact serveJackInclude_retains item
  · exact serveJackClear_retains item
  · split <;> exact .refl s

/-- A sector's new record, and the passage of the mode. -/
theorem Retains.setSector (s : State) (k : SectorIx) (x : Sector) : Retains s (s.setSector k x).passMode.commit :=
  ((Unwritten.refl s).setSector ..).passMode.commit

theorem serveSectorDefineAny_retains (item : Item) (payload : List Byte) :
    Retains s (serveSectorDefineAny item payload s).1 := by
  unfold serveSectorDefineAny serveSectorDefine serveSectorUndefine
  split
  · split
    · exact .refl s
    · split
      · exact .refl s
      · split
        · exact .refl s
        · exact .setSector ..
  · split
    · exact .refl s
    · split_ifs
      · exact .refl s
      · exact .refl s
      · exact .refl s
      · exact .setSector ..
  · split <;> exact .refl s

theorem serveSectorBase_retains (item : Item) (payload : List Byte) : Retains s (serveSectorBase item payload s).1 := by
  unfold serveSectorBase
  dsimp only
  split
  · exact .refl s
  · split_ifs
    · exact .refl s
    · exact .refl s
    · exact .refl s
    · exact .setSector ..

theorem Unwritten.appendLayer (h : Unwritten s t) (k : SectorIx) (slot : Slot) (free : List Slot) (thickness : Nat)
    (c : Fin 4) : Unwritten s (t.appendLayer k slot free thickness c) := ⟨h.retained, h.contents⟩

theorem serveLayerPlaced_retains (item : Item) (payload : List Byte) :
    Retains s (serveLayerPlaced item payload s).1 := by
  unfold serveLayerPlaced
  dsimp only
  split
  · exact .refl s
  · split
    · exact .refl s
    · split
      · exact .refl s
      · split
        · exact .refl s
        · split_ifs
          · exact .refl s
          · exact .refl s
          · split
            · exact .refl s
            · exact (Unwritten.appendLayer (.refl s) ..).placeExposed.commit

theorem serveLayerWithdraw_retains (item : Item) : Retains s (serveLayerWithdraw item s).1 := by
  unfold serveLayerWithdraw
  split
  · exact .refl s
  · split
    · exact .refl s
    · split_ifs
      · exact .refl s
      · exact .refl s
      · exact Unwritten.commit ⟨rfl, rfl⟩

/-! ### Grants (chapter 5) -/

theorem Unwritten.demand (s : State) (st : Station) (scope : Option (Fin 8)) (most : Nat) :
    Unwritten s (s.demand st scope most).state := by
  refine List.foldlRecOn (motive := fun d : Demand => Unwritten s d.state) _ _ (.refl s) fun d kept j _ => ?_
  unfold Demand.step
  split
  · exact kept.trans ⟨rfl, rfl⟩
  · exact kept

theorem serveStrokeDemand_retains (p : Port) (payload : List Byte) : Retains s (serveStrokeDemand p payload s).1 := by
  unfold serveStrokeDemand
  split
  · exact .refl s
  · exact .refl s
  · split_ifs
    · exact .refl s
    · exact .refl s
    · exact .refl s
    · exact (Unwritten.demand ..).commit

theorem Unwritten.heightMoved (h : Unwritten s t) (before : State) (j : JackIx) :
    Unwritten s (t.heightMoved before j) := by
  unfold State.heightMoved
  split
  · exact h
  · dsimp only
    split
    · exact ((h.retireSector _).placeExposed).crawlAfter _
    · exact h.placeExposed.crawlAfter _

theorem Unwritten.settle (h : Unwritten s t) : Unwritten s t.settle := ⟨h.retained, h.contents⟩

theorem Unwritten.doneEntry (s : State) (j : JackIx) (travel : Nat) : Unwritten s (s.doneEntry j travel) :=
  ((((Unwritten.refl s).setGrant ..).setLive ..).count _).heightMoved s j

theorem Unwritten.lateEntry (s : State) (j : JackIx) (travel : Nat) : Unwritten s (s.lateEntry j travel) :=
  (((Unwritten.refl s).setLive ..).count _).heightMoved s j

theorem Unwritten.ungrantedEntry (s : State) (j : JackIx) (travel : Nat) : Unwritten s (s.ungrantedEntry j travel) :=
  ((((Unwritten.refl s).setLive ..).count _).placePart ..).heightMoved s j

theorem Unwritten.reportEntry (s : State) (st : Station) (jack travel : Nat) :
    Unwritten s (s.reportEntry st jack travel).1 := by
  unfold State.reportEntry
  split
  · exact .refl s
  · dsimp only
    split
    · exact .settle (.refl s)
    · exact .settle (.refl s)
    · exact .settle (.refl s)
    · exact .settle (.doneEntry ..)
    · exact .settle (.lateEntry ..)
    · split
      · exact .settle (.refl s)
      · exact .settle (.ungrantedEntry ..)

theorem Unwritten.report (s : State) (st : Station) (entries : List (Nat × Nat)) :
    Unwritten s (s.report st entries).1 := by
  induction entries generalizing s with
  | nil => exact .refl s
  | cons e rest ih => exact (Unwritten.reportEntry ..).trans (ih _)

theorem serveStrokeReport_retains (p : Port) (payload : List Byte) : Retains s (serveStrokeReport p payload s).1 := by
  unfold serveStrokeReport
  split
  · exact .refl s
  · exact (Unwritten.report ..).commit

theorem Unwritten.cancel (s : State) (st : Station) (named : List Byte) : Unwritten s (s.cancel st named).1 := by
  induction named generalizing s with
  | nil => exact .refl s
  | cons b rest ih =>
    refine Unwritten.trans ?_ (ih (s.cancelEntry st b.toNat).1)
    rcases (s.cancelEntry_cases st b.toNat).2 with e | ⟨_, _, e⟩ <;> rw [e]
    · exact .refl s
    · exact ⟨rfl, rfl⟩

theorem serveStrokeCancel_retains (p : Port) (payload : List Byte) : Retains s (serveStrokeCancel p payload s).1 := by
  unfold serveStrokeCancel
  split
  · exact .refl s
  · exact (Unwritten.cancel ..).commit

/-! ### Modes, holds and the plan (chapters 6 and 7) -/

theorem Retains.leaveFor (s : State) (m : Mode) : Retains s (s.leaveFor m).commit := by
  refine Unwritten.commit ?_
  unfold State.leaveFor
  dsimp only
  split <;> exact ⟨rfl, rfl⟩

theorem serveModeSet_retains (payload : List Byte) : Retains s (serveModeSet payload s).1 := by
  have enters : Retains s (match s.hMin with
      | none => (s, Reply.refuse .state 1)
      | some m => ((s.enterCrawl m).commit, .accept (modeAnswer (s.enterCrawl m).commit))).1 := by
    split
    · exact .refl s
    · exact Unwritten.commit ⟨rfl, rfl⟩
  unfold serveModeSet
  split
  · split
    · exact .refl s
    · exact .leaveFor ..
  · split
    · exact .refl s
    · exact .refl s
    · exact enters
    · exact enters
  · split
    · exact .refl s
    · exact .leaveFor ..
  · exact .refl s

theorem serveHoldPlace_retains (p : Port) (payload : List Byte) : Retains s (serveHoldPlace p payload s).1 := by
  unfold serveHoldPlace
  split
  · exact .refl s
  · split
    · exact .refl s
    · split
      · exact .refl s
      · exact Unwritten.commit ⟨rfl, rfl⟩

theorem serveHoldRelease_retains (p : Port) (payload : List Byte) : Retains s (serveHoldRelease p payload s).1 := by
  unfold serveHoldRelease
  split
  · exact .refl s
  · split
    · exact .refl s
    · split_ifs
      · exact .refl s
      · exact .refl s
      · exact .refl s
      · exact Unwritten.commit ⟨rfl, rfl⟩

theorem servePlanStage_retains (item : Item) (payload : List Byte) : Retains s (servePlanStage item payload s).1 := by
  unfold servePlanStage
  dsimp only
  split
  · exact .refl s
  · split
    · exact .refl s
    · exact Aside.retains ⟨⟨rfl, rfl⟩, rfl⟩

theorem Unwritten.applyPlan (s : State) : Unwritten s s.applyPlan := by
  unfold State.applyPlan
  dsimp only
  have taken : Unwritten s { s with
      active := s.staged, planSerial := nextSerial s.planSerial, planRejected := false } := ⟨rfl, rfl⟩
  split
  · exact taken
  · exact (taken.refreshAll.retireSectors _).placeExposed.placeCrawlLimit

theorem servePlanApply_retains : Retains s (servePlanApply s).1 := by
  unfold servePlanApply
  split
  · exact Aside.retains ⟨⟨rfl, rfl⟩, rfl⟩
  · exact (Unwritten.applyPlan s).commit

/-! ### The link and the memories (chapters 8 to 10) -/

theorem serveCounters_retains (payload : List Byte) : Retains s (serveCounters payload s).1 := by
  unfold serveCounters
  split
  · exact Aside.retains ⟨⟨rfl, rfl⟩, rfl⟩
  all_goals exact .refl s

theorem servePortSet_retains (item : Item) (payload : List Byte) : Retains s (servePortSet item payload s).1 := by
  unfold servePortSet
  split
  · exact .refl s
  · split
    · exact .refl s
    · exact (Aside.setPort ..).retains

theorem serveConfigStart_retains (op : StoreOp) : Retains s (serveConfigStart op s).1 := by
  unfold serveConfigStart
  split_ifs
  · exact .refl s
  · exact .refl s
  · exact Aside.retains ⟨⟨rfl, rfl⟩, rfl⟩

theorem serveClearDeck_retains : Retains s (serveClearDeck s).1 := by
  unfold serveClearDeck
  split_ifs
  · exact .refl s
  · exact .refl s
  · exact .rewrite rfl

/-! ### Every request but DIAGNOSE -/

/-- A read leaves the state as it is. -/
theorem Retains.of_read (h : u = s) : Retains s u := by
  rw [h]
  exact .refl s

theorem serveRequest_retains {r : Request} (other : r ≠ .diagnose) (p : Port) (item : Item) (payload : List Byte)
    (seen : Findings) : Retains s (serveRequest r p item payload seen s).1 := by
  cases r with
  | deckSummary => exact .refl s
  | jackRead => exact .of_read (by simp only [serveRequest, serveJackRead]; split <;> rfl)
  | sectorRead => exact .of_read (by simp only [serveRequest, serveSectorRead]; split <;> rfl)
  | layerRead => exact .of_read (by simp only [serveRequest, serveLayerRead]; split <;> [rfl; split <;> rfl])
  | probeRead => exact .of_read (by simp only [serveRequest, serveProbeRead]; split <;> rfl)
  | planRead =>
    exact .of_read (by simp only [serveRequest, servePlanRead, servePlanReadState]; split <;> [rfl; split <;> rfl])
  | identity => exact .refl s
  | strokeDemand => exact serveStrokeDemand_retains p payload
  | strokeReport => exact serveStrokeReport_retains p payload
  | strokeCancel => exact serveStrokeCancel_retains p payload
  | stationView => exact .of_read (by simp only [serveRequest, serveStationView]; split <;> [rfl; split <;> rfl])
  | layerPlaced => exact serveLayerPlaced_retains item payload
  | feedAdvice => exact .refl s
  | layerWithdraw => exact serveLayerWithdraw_retains item
  | holdPlace => exact serveHoldPlace_retains p payload
  | holdRelease => exact serveHoldRelease_retains p payload
  | holdList => exact .of_read (by simp only [serveRequest, serveHoldList]; split <;> rfl)
  | modeSet => exact serveModeSet_retains payload
  | survey => exact serveSurvey_retains item payload
  | rodExtend => exact serveRodExtend_retains item payload
  | jackSet => exact serveJackSet_retains item payload
  | jackDefine => exact serveJackDefineAny_retains item payload
  | sectorDefine => exact serveSectorDefineAny_retains item payload
  | sectorBase => exact serveSectorBase_retains item payload
  | planStage => exact servePlanStage_retains item payload
  | planApply => exact servePlanApply_retains
  | silence => exact Aside.retains ⟨⟨rfl, rfl⟩, rfl⟩
  | configSave => exact Aside.retains ⟨⟨rfl, rfl⟩, rfl⟩
  | configLoad => exact serveConfigStart_retains .load
  | configFactory => exact serveConfigStart_retains .factory
  | clearDeck => exact serveClearDeck_retains
  | restart => exact Aside.retains ⟨⟨rfl, rfl⟩, rfl⟩
  | diagnose => exact absurd rfl other
  | counters => exact serveCounters_retains payload
  | portSet => exact servePortSet_retains item payload

end Sys2Proof.Machine
end


section
/-! SUPPORT. What every command, and so every step, does to the two memories (R165 to R168): the cases of
`MemoryEvent`. -/

namespace Sys2Proof.Machine

variable {s t u : State} {p : Port} {seen : Findings}

/-! ### Frames and bytes (R143 to R149, R164) -/

/-- A frame retains the deck, or is a DIAGNOSE: the memories are as its look finds them. -/
inductive Judged (seen : Findings) (s t : State) : Prop
  | retains (h : Retains s t)
  | looked (h : Aside (s.foundMemories seen) t)

/-- A look changes what the checks say, not what the memories hold. -/
theorem State.foundMemories_liveCopy (s : State) (seen : Findings) : (s.foundMemories seen).liveCopy = s.liveCopy := by
  have kept := s.retained.found_toRetainedCopy seen.retainedIntact
  have stamp := congrArg RetainedCopy.stamp kept
  have counter := congrArg RetainedCopy.counter kept
  have mark := congrArg RetainedCopy.runMark kept
  simp only [State.liveCopy, State.foundMemories, stamp, counter, mark]

theorem Aside.foundMemories (h : Aside s t) (seen : Findings) :
    Aside (s.foundMemories seen) (t.foundMemories seen) where
  retained := congrArg (Retained.found · seen.retainedIntact) h.retained
  contents := ((t.store.found_contents _).trans h.contents).trans (s.store.found_contents _).symm
  live := ((t.foundMemories_liveCopy seen).trans h.live).trans (s.foundMemories_liveCopy seen).symm

theorem Aside.of_intact (intact : seen.retainedIntact = true) : Aside s (s.foundMemories seen) where
  retained := by rw [State.foundMemories, intact, Retained.found_true]
  contents := s.store.found_contents _
  live := s.foundMemories_liveCopy seen

theorem Judged.refl (s : State) : Judged seen s s := .retains (.refl s)

theorem Aside.judged (h : Aside s t) : Judged seen s t := .retains h.retains

theorem Judged.after (h : Judged seen t u) (before : Aside s t) : Judged seen s u := by
  cases h with
  | retains h => exact .retains (before.retains.trans h)
  | looked h => exact .looked ((before.foundMemories seen).trans h)

theorem Judged.aside (h : Judged seen s t) (after : Aside t u) : Judged seen s u := by
  cases h with
  | retains h => exact .retains (h.trans after.retains)
  | looked h => exact .looked (h.trans after)

theorem serveRequest_judged (r : Request) (p : Port) (item : Item) (payload : List Byte) (seen : Findings) :
    Judged seen s (serveRequest r p item payload seen s).1 := by
  by_cases diagnose : r = .diagnose
  · rw [diagnose, serveRequest, serveDiagnose]
    refine .looked ?_
    dsimp only
    split <;> exact ⟨⟨rfl, rfl⟩, rfl⟩
  · exact .retains (serveRequest_retains diagnose ..)

theorem Judged.takeFrame (s : State) (p : Port) (code : Byte) (item : Item) (payload : List Byte) (seen : Findings) :
    Judged seen s (s.takeFrame p code item payload seen) := by
  unfold State.takeFrame
  split
  · rw [State.take_cases]
    refine Judged.after ?_ (.goodFrame s p)
    split_ifs
    · exact (Aside.respond ..).judged
    · exact (Aside.respond ..).judged
    · exact (serveRequest_judged ..).aside (.respond ..)
  · exact ((Aside.goodFrame s p).trans (.respond ..)).judged

theorem Judged.onFrame {n : Nat} {judge : State → State}
    (judged : Judged seen (s.setReceiver p .listening) (judge (s.setReceiver p .listening))) :
    Judged seen s (s.onFrame p n judge) := by
  unfold State.onFrame
  split
  · exact .refl s
  · split
    · exact (Aside.lengthDiscard s p).judged
    · exact (Aside.overrunDiscard s p).judged
  all_goals
    split
    · exact (Aside.lengthDiscard s p).judged
    · exact judged.after (.setPort ..)

theorem Judged.hear (s : State) (p : Port) (b : Byte) (seen : Findings) : Judged seen s (s.hear p b seen) := by
  unfold State.hear
  split
  · split
    · exact (Aside.setPort ..).judged
    · exact .refl s
  · unfold State.gather
    split
    · exact (Aside.setPort ..).judged
    · exact ((Aside.lengthDiscard s p).trans (.settle _)).judged
    · refine Judged.aside (.onFrame ?_) (.settle _)
      split
      · exact .takeFrame ..
      · exact (Aside.checkFail ..).judged
  · split
    · exact (Aside.setPort ..).judged
    · exact .refl s
  · unfold State.gatherServing
    split
    · exact (Aside.setPort ..).judged
    · exact ((Aside.lengthDiscard s p).trans (.settle _)).judged
    · exact ((Aside.overrunDiscard s p).trans (.settle _)).judged
  · exact .refl s

/-! ### The store's ends and start-up (R168 to R172) -/

theorem Retains.adopt (s : State) (c : Configuration) : Retains s (s.adopt c) := by
  have replaced : Unwritten s (s.replaceRecords c) := by
    rw [State.replaceRecords]
    exact ⟨rfl, rfl⟩
  have records : s.replaceConfiguration c = (s.replaceRecords c).setSpeeds c.speeds := rfl
  unfold State.adopt
  rw [records]
  exact ((replaced.setSpeeds c.speeds).refreshAll.retireSectors _).placeExposed.deriveMode.commit

theorem Retains.endLoad (s : State) (intact : Bool) : Retains s (s.endLoad intact) := by
  unfold State.endLoad
  split
  · have ended : Aside s { s with storeOp := none, storeBad := false } := ⟨⟨rfl, rfl⟩, rfl⟩
    exact (ended.retains.trans (.adopt ..)).trans (Aside.respond ..).retains
  · have ended : Aside s { s with storeOp := none, storeBad := true, store := s.store.found intact } :=
      ⟨⟨rfl, s.store.found_contents intact⟩, rfl⟩
    exact (ended.trans (.respond ..)).retains

theorem Retains.endFactory (s : State) : Retains s s.endFactory := by
  have ended : Aside s { s with storeOp := none } := ⟨⟨rfl, rfl⟩, rfl⟩
  unfold State.endFactory
  exact (ended.retains.trans (.adopt ..)).trans (Aside.respond ..).retains

theorem State.creditOutage_contents (s : State) : s.creditOutage.store.contents = s.store.contents :=
  (Unwritten.placeExposed (.refl _)).contents.trans (Unwritten.credit (.refl s) _).contents

/-- Whatever its looks have found, the sequence ends with a write of retained memory and leaves the store's contents. -/
theorem Retains.startUp (s : State) (bad retainedIntact storeIntact : Bool) (battery : Nat) :
    Retains s (s.startUp bad retainedIntact storeIntact battery) := by
  have found : ∀ v : State, v.store = s.store.found storeIntact → v.store.contents = s.store.contents := fun v e => by
    rw [e, Store.found_contents]
  unfold State.startUp State.startUpFound
  refine .rewrite ?_
  show (State.store (if _ then _ else _)).contents = _
  split
  · rw [State.creditOutage_contents, State.rebuild]
    exact (Unwritten.retireSectors (.refl _) _).contents.trans (found _ rfl)
  · exact found _ rfl

theorem Retains.matureDeck (s : State) : Retains s s.matureDeck := by
  have matured := (Unwritten.refl s).interval fun s k => increment s.active (s.temperature k)
  unfold State.matureDeck
  generalize s.interval (fun s k => increment s.active (s.temperature k)) = t at matured ⊢
  exact .rewrite matured.contents

/-! ### Commands -/

/-- The command may find the memories as `seen` says: DIAGNOSE, or a byte, which may be the last of one. -/
def Looks (c : Instr) (seen : Findings) : Prop :=
  (∃ p item payload, c = .diagnose p item payload seen) ∨ ∃ p b, c = .byteReceived p b seen

/-- What a command does to the two memories. -/
inductive MemoryEvent (c : Instr) (s : State) : State → Prop
  | retains {t : State} (h : Retains s t) : MemoryEvent c s t
  | lost {t : State} (seen : Findings) (looks : Looks c seen) (finds : seen.retainedIntact = false)
      (h : Aside (s.foundMemories seen) t) : MemoryEvent c s t
  | counted (counter : Nat) (mark : Bool) :
      MemoryEvent c s
        { s with retained := s.retained.recheck { s.retained with counter := counter, runMark := mark } }
  | saved {t : State} (snapshot : Configuration) (serial : Nat) (saving : s.storeOp = some (.save snapshot serial))
      (retained : t.retained = s.retained) (live : t.liveCopy = s.liveCopy) (store : t.store = Store.holding snapshot) :
      MemoryEvent c s t

/-- Only DIAGNOSE among the request rows has findings of a loss. -/
theorem looks_of_seenBy {c : Instr} {f : Frame} (row : frame? (seenBy c) c = some f)
    (finds : (seenBy c).retainedIntact = false) : Looks c (seenBy c) := by
  cases c
  case diagnose p item payload seen => exact .inl ⟨p, item, payload, rfl⟩
  all_goals cases finds

variable {c : Instr}

theorem Aside.memoryEvent (h : Aside s t) : MemoryEvent c s t := .retains h.retains

theorem Judged.memoryEvent (h : Judged seen s t) (looks : seen.retainedIntact = false → Looks c seen) :
    MemoryEvent c s t := by
  cases h with
  | retains h => exact .retains h
  | looked h =>
    cases finds : seen.retainedIntact with
    | false => exact .lost seen (looks finds) finds h
    | true => exact ((Aside.of_intact finds).trans h).memoryEvent

/-- The outputs are driven after an event, which touches no memory. -/
theorem whenRunning_judged {f : State → State} (h : whenRunning s f = .next t) (judged : Judged seen s (f s)) :
    Judged seen s t := by
  rcases whenRunning_cases s h with ⟨_, rfl⟩ | ⟨_, rfl⟩
  · exact judged.aside (.settle _)
  · exact .retains (.refl _)

theorem whenRunning_retains {f : State → State} (h : whenRunning s f = .next t) (kept : Retains s (f s)) :
    MemoryEvent c s t := by
  rcases whenRunning_cases s h with ⟨_, rfl⟩ | ⟨_, rfl⟩
  · exact .retains (kept.trans (Aside.settle _).retains)
  · exact .retains (.refl _)

theorem execConfigSaveEnd_memoryEvent {good : Bool} (h : execConfigSaveEnd good s = .next t) : MemoryEvent c s t := by
  rcases whenRunning_cases s h with ⟨_, rfl⟩ | ⟨_, rfl⟩
  · split
    · next snapshot serial saving =>
      unfold State.endSave
      dsimp only
      split
      · exact .saved snapshot serial saving rfl rfl rfl
      · have failed : Aside s { s with storeOp := none, storeBad := !good, store := s.store.spoil } := ⟨⟨rfl, rfl⟩, rfl⟩
        exact ((failed.trans (.respond ..)).trans (.settle _)).memoryEvent
    all_goals exact (Aside.settle s).memoryEvent
  · exact .retains (.refl _)

theorem execConfigLoadEnd_memoryEvent {intact : Bool} (h : execConfigLoadEnd intact s = .next t) :
    MemoryEvent c s t := by
  refine whenRunning_retains h ?_
  split
  · exact .endLoad ..
  all_goals exact .refl s

theorem execConfigFactoryEnd_memoryEvent (h : execConfigFactoryEnd s = .next t) : MemoryEvent c s t := by
  refine whenRunning_retains h ?_
  split
  · exact .endFactory s
  all_goals exact .refl s

theorem execFrameCheckFail_memoryEvent {code : Byte} {item : Item} {payload : List Byte}
    (h : execFrameCheckFail p code item payload s = .next t) : MemoryEvent c s t := by
  have judged : Judged ⟨true, true, false, false, .present⟩ s _ :=
    whenRunning_judged h (.onFrame (Aside.checkFail ..).judged)
  exact judged.memoryEvent nofun

theorem execFrameLengthDiscard_memoryEvent (h : execFrameLengthDiscard p s = .next t) : MemoryEvent c s t :=
  whenRunning_retains h (Aside.lengthDiscard s p).retains

theorem execAnswerSent_memoryEvent (h : execAnswerSent p s = .next t) : MemoryEvent c s t :=
  whenRunning_retains h (Aside.answerLeft s p).retains

theorem execFrameOverrunDiscard_memoryEvent (h : execFrameOverrunDiscard p s = .next t) : MemoryEvent c s t := by
  refine whenRunning_retains h ?_
  split
  · exact (Aside.overrunDiscard s p).retains
  all_goals exact .refl s

theorem execGapTimerExpiry_memoryEvent (h : execGapTimerExpiry p s = .next t) : MemoryEvent c s t := by
  refine whenRunning_retains h ?_
  split
  · exact (Aside.gapDiscard ..).retains
  · exact (Aside.gapDiscard ..).retains
  all_goals exact .refl s

theorem execAliveTimerExpiry_memoryEvent (h : execAliveTimerExpiry p s = .next t) : MemoryEvent c s t := by
  refine whenRunning_retains h ?_
  split
  · exact (Aside.setAlive ..).retains
  · exact .refl s

theorem execGrantExpiry_memoryEvent {j : JackIx} (h : execGrantExpiry j s = .next t) : MemoryEvent c s t := by
  refine whenRunning_retains h ?_
  split
  · exact ((((Unwritten.refl s).setGrant ..).setLive ..).count _).commit
  · exact .refl s

theorem execProbeSampleExpiry_memoryEvent {samples : Vector Int 12} {battery : Nat}
    (h : execProbeSampleExpiry samples battery s = .next t) : MemoryEvent c s t := by
  refine whenRunning_retains h ?_
  split
  · exact Aside.retains ⟨⟨rfl, rfl⟩, rfl⟩
  · exact .refl s

theorem execMaturityIntervalExpiry_memoryEvent (h : execMaturityIntervalExpiry s = .next t) : MemoryEvent c s t := by
  refine whenRunning_retains h ?_
  split
  · exact .matureDeck s
  · exact .refl s

theorem execHoldFilterExpiry_memoryEvent (h : execHoldFilterExpiry s = .next t) : MemoryEvent c s t := by
  refine whenRunning_retains h ?_
  split
  · exact (Aside.decideLine s).retains
  · exact .refl s

theorem execHoldLineChange_memoryEvent {low : Bool} (h : execHoldLineChange low s = .next t) : MemoryEvent c s t := by
  cases h
  dsimp only
  split <;> exact Aside.memoryEvent ⟨⟨rfl, rfl⟩, rfl⟩

theorem execRunMarkBreak_memoryEvent (h : execRunMarkBreak s = .next t) : MemoryEvent c s t := by
  cases h
  split
  · exact .counted s.retained.counter false
  · exact .retains (.refl s)

theorem execPowerOn_memoryEvent (h : execPowerOn s = .next t) : MemoryEvent c s t := by
  unfold execPowerOn at h
  split at h <;> cases h
  · split <;> exact (Aside.halt ..).memoryEvent
  all_goals exact .retains (.refl _)

theorem execResetLineLow_memoryEvent (h : execResetLineLow s = .next t) : MemoryEvent c s t := by
  have low : Aside s { s with resetLow := true } := ⟨⟨rfl, rfl⟩, rfl⟩
  dsimp only [execResetLineLow] at h
  split at h <;> cases h
  · exact low.memoryEvent
  all_goals exact (low.trans (.halt ..)).memoryEvent

theorem execResetLineHigh_memoryEvent (h : execResetLineHigh s = .next t) : MemoryEvent c s t := by
  have high : Aside s { s with resetLow := false } := ⟨⟨rfl, rfl⟩, rfl⟩
  dsimp only [execResetLineHigh] at h
  split at h <;> cases h
  · exact (high.trans (.halt ..)).memoryEvent
  all_goals exact high.memoryEvent

theorem execStartUpSequence_memoryEvent {retainedIntact storeIntact : Bool} {battery : Nat}
    (h : execStartUpSequence retainedIntact storeIntact battery s = .next t) : MemoryEvent c s t := by
  unfold execStartUpSequence at h
  split at h <;> cases h
  · exact .retains ((Retains.startUp ..).trans (Aside.settle _).retains)
  all_goals exact .retains (.refl _)

theorem execByteReceived_memoryEvent {b : Byte} (h : execByteReceived p b seen s = .next t) :
    MemoryEvent (.byteReceived p b seen) s t := by
  cases h
  split
  · exact (Judged.hear ..).memoryEvent fun _ => .inr ⟨p, b, rfl⟩
  · exact .retains (.refl s)

/-- A request row, by its frame. -/
theorem exec_frame_memoryEvent {f : Frame} (row : frame? (seenBy c) c = some f) (h : exec c s = .next t) :
    MemoryEvent c s t := by
  rcases exec_of_frame row s with e | e <;> rw [e] at h
  · cases h
    exact .retains (.refl s)
  · exact (whenRunning_judged h (.onFrame (.takeFrame ..))).memoryEvent (looks_of_seenBy row)

theorem exec_memoryEvent (h : exec c s = .next t) : MemoryEvent c s t := by
  cases row : frame? (seenBy c) c with
  | some f => exact exec_frame_memoryEvent row h
  | none =>
    cases c with
    | configSaveEnd good => exact execConfigSaveEnd_memoryEvent h
    | configLoadEnd intact => exact execConfigLoadEnd_memoryEvent h
    | configFactoryEnd => exact execConfigFactoryEnd_memoryEvent h
    | frameCheckFail p code item payload => exact execFrameCheckFail_memoryEvent h
    | frameLengthDiscard p => exact execFrameLengthDiscard_memoryEvent h
    | frameOverrunDiscard p => exact execFrameOverrunDiscard_memoryEvent h
    | gapTimerExpiry p => exact execGapTimerExpiry_memoryEvent h
    | answerSent p => exact execAnswerSent_memoryEvent h
    | aliveTimerExpiry p => exact execAliveTimerExpiry_memoryEvent h
    | grantExpiry j => exact execGrantExpiry_memoryEvent h
    | probeSampleExpiry samples battery => exact execProbeSampleExpiry_memoryEvent h
    | maturityIntervalExpiry => exact execMaturityIntervalExpiry_memoryEvent h
    | holdLineChange low => exact execHoldLineChange_memoryEvent h
    | holdFilterExpiry => exact execHoldFilterExpiry_memoryEvent h
    | deckClockAdvance => cases h; exact .counted _ s.retained.runMark
    | powerOn => exact execPowerOn_memoryEvent h
    | powerFail => cases h; exact (Aside.halt ..).memoryEvent
    | resetLineLow => exact execResetLineLow_memoryEvent h
    | resetLineHigh => exact execResetLineHigh_memoryEvent h
    | runMarkBreak => exact execRunMarkBreak_memoryEvent h
    | startUpSequence retainedIntact storeIntact battery => exact execStartUpSequence_memoryEvent h
    | byteReceived p b seen => exact execByteReceived_memoryEvent h
    | diagnose p item payload seen => simp [frame?, seenBy] at row
    | _ => cases row

/-! ### What follows for each memory -/

/-- Retained memory goes on mirroring the deck. -/
theorem MemoryEvent.mirrors (h : MemoryEvent c s t) (m : s.RetainedMirrors) : t.RetainedMirrors := by
  cases h with
  | retains h => exact h.mirrors m
  | lost seen _ _ h =>
    rw [State.retainedMirrors_iff] at m ⊢
    rw [h.retained, h.live, State.foundMemories_liveCopy, ← m]
    exact s.retained.found_toRetainedCopy _
  | counted => exact m
  | saved _ _ _ retained live =>
    rw [State.retainedMirrors_iff] at m ⊢
    rw [retained, live, m]

/-- A change of the contents comes with their check, but for the counter and the run mark under a check that failed. -/
theorem MemoryEvent.check (h : MemoryEvent c s t) (changed : t.retained.toRetainedCopy ≠ s.retained.toRetainedCopy) :
    t.retained.check = t.retained.formed ∨
    s.retained.checkGood = false ∧ t.retained.checkGood = false ∧
      t.retained = { s.retained with
        counter := t.retained.counter, runMark := t.retained.runMark, check := t.retained.check } := by
  cases h with
  | retains h =>
    rcases h.check with good | same
    · exact .inl (t.retained.checkGood_iff.mp good)
    · exact absurd (congrArg Retained.toRetainedCopy same) changed
  | lost seen _ _ h =>
    rw [h.retained] at changed
    exact absurd (s.retained.found_toRetainedCopy _) changed
  | counted counter mark =>
    have moves := s.retained.recheck_checkGood { s.retained with counter := counter, runMark := mark }
    cases good : s.retained.checkGood with
    | true => exact .inl ((Retained.checkGood_iff _).mp (moves.trans good))
    | false => exact .inr ⟨rfl, moves.trans good, rfl⟩
  | saved _ _ _ retained => exact absurd (congrArg Retained.toRetainedCopy retained) changed

/-- Only a look finds a check failing that matched. -/
theorem MemoryEvent.fails (h : MemoryEvent c s t) (good : s.retained.checkGood = true)
    (bad : t.retained.checkGood = false) : ∃ seen : Findings, seen.retainedIntact = false ∧ Looks c seen := by
  cases h with
  | retains h =>
    rcases h.check with good' | same
    · rw [good'] at bad
      cases bad
    · rw [same, good] at bad
      cases bad
  | lost seen looks finds h => exact ⟨seen, finds, looks⟩
  | counted counter mark =>
    rw [Retained.recheck_checkGood, good] at bad
    cases bad
  | saved _ _ _ retained =>
    rw [retained, good] at bad
    cases bad

/-- Only the end of a save changes the store's contents (R168). -/
theorem MemoryEvent.saves (h : MemoryEvent c s t) (changed : t.store.contents ≠ s.store.contents) :
    t.store.check = t.store.contents.formed ∧ ∃ serial, s.storeOp = some (.save t.store.contents serial) := by
  cases h with
  | retains h => exact absurd h.contents changed
  | lost seen _ _ h => exact absurd (h.contents.trans (s.store.found_contents _)) changed
  | counted => exact absurd rfl changed
  | saved snapshot serial saving _ _ store =>
    rw [store]
    exact ⟨rfl, serial, saving⟩

/-! ### The two writes -/

/-- Each writes the whole live deck; a commit leaves a memory that holds it already. -/
theorem State.write_cases (h : u = s.commit ∨ u = s.rewrite) :
    u = { s with retained := u.retained } ∧ u.RetainedMirrors ∧ u.retained.stamp = s.retained.stamp ∧
    u.retained.counter = s.retained.counter ∧ u.retained.runMark = s.retained.runMark ∧
    (u.retained.check = u.retained.formed ∨ u = s.commit ∧ u.retained = s.retained) := by
  rcases h with rfl | rfl
  · exact ⟨rfl, s.commit_retainedMirrors, rfl, rfl, rfl,
      s.commit_checkGood.imp (Retained.checkGood_iff _).mp fun same => ⟨rfl, same.2⟩⟩
  · exact ⟨rfl, s.rewrite_retainedMirrors, rfl, rfl, rfl, .inl rfl⟩

end Sys2Proof.Machine

open Sys2Proof Sys2Proof.Machine

/-- Settles O57: every event touches neither memory nor what they keep, ends with a write, or is one of the few of
`MemoryEvent`. -/
theorem retainedMemoryMirrorsTheDeck : Obligations.RetainedMemoryMirrorsTheDeck := by
  refine ⟨fun s u write => State.write_cases write, fun s t run => ?_⟩
  unfold step at run
  split at run
  · cases run
    have idle : Aside s s.idle := ⟨⟨rfl, rfl⟩, rfl⟩
    have event : MemoryEvent .powerOn s s.idle := idle.memoryEvent
    exact ⟨event.mirrors, event.check, fun good bad => by simp [idle.retained, good] at bad, event.saves⟩
  · next c rest waiting =>
    have event := exec_memoryEvent run
    refine ⟨event.mirrors, event.check, fun good bad => ?_, event.saves⟩
    obtain ⟨seen, finds, looks⟩ := event.fails good bad
    refine ⟨seen, rest, finds, ?_⟩
    rw [waiting]
    rcases looks with ⟨p, item, payload, rfl⟩ | ⟨p, b, rfl⟩
    · exact .inl ⟨p, item, payload, rfl⟩
    · exact .inr ⟨p, b, rfl⟩

end

section
/-! SUPPORT. A request of the console that goes on in SERVING (R149), and the store requests of section 10.3. -/

namespace Sys2Proof.Machine

variable {s u : State} {item : Item}

/-! ### Requests that go on in SERVING -/

/-- A request of the console that its rule goes on to serve, on the state that its own frame leaves. -/
theorem served_of_request {c : Instr} {r : Request} {n : Nat} {serve : State → State × Reply}
    (row : exec c s = request r .console n serve s) (hears : s.Hears .console) (allowed : r.allowed .console = true)
    (lengthOk : r.lengthOk n = true) (link : u.link = s.link)
    (served : serve (s.withLink (s.linkAfterFrame .console)) = (u.withLink (s.linkAfterFrame .console), .serve)) :
    Served c s u := by
  have ports : u.ports = s.ports := congrArg Link.ports link
  have port : ∀ q, u.port q = s.port q := fun q => congrArg (fun v : Vector PortRec 4 => v[q.ix]) ports
  have good : ∀ q, (u.withLink (s.linkAfterFrame .console)).port q = if q = .console then _ else s.port q :=
    fun q => s.port_setPort .console q _
  have take : (s.setReceiver .console .listening).take r .console n serve =
      (u.withLink (s.linkAfterFrame .console)).setReceiver .console (.serving []) := by
    rw [State.take_cases, State.goodFrame_setReceiver, served, allowed, lengthOk]
    rfl
  refine ⟨_, row.trans (request_hears s r .console n serve hears (Request.le_of_lengthOk lengthOk)), ?_⟩
  rw [take]
  refine ⟨?_, ?_, (congrArg Link.aliveA link).symm, (congrArg Link.aliveB link).symm, rfl, ⟨rfl, rfl⟩, rfl⟩
  · refine (State.port_setPort _ .console .console _).trans ?_
    rw [if_pos rfl, good, if_pos rfl, port]
    rfl
  · intro q hq
    refine (State.port_setPort _ .console q _).trans ?_
    rw [if_neg hq, good, if_neg hq, port]

/-! ### CONFIG SAVE (R168) -/

/-- A frame changes no port's speed, so the snapshot is the configuration that the frame finds. -/
theorem State.withLink_linkAfterFrame_configuration (s : State) (p : Port) :
    (s.withLink (s.linkAfterFrame p)).configuration = s.configuration := by
  have speeds : (s.withLink (s.linkAfterFrame p)).ports.map PortRec.speed = s.ports.map PortRec.speed := by
    refine Vector.ext fun i hi => ?_
    rw [Vector.getElem_map, Vector.getElem_map]
    show ((s.ports.set p.ix.val _ p.ix.isLt)[i]).speed = _
    rw [Vector.getElem_set]
    split
    · next here => subst here; rfl
    · rfl
  rw [State.configuration, speeds]
  rfl

theorem configSave_served (hears : s.Hears .console) :
    Served (.configSave .console item []) s { s with storeOp := some (.save s.configuration s.planSerial) } := by
  refine served_of_request rfl hears rfl rfl rfl ?_
  rw [serveConfigSave, State.withLink_linkAfterFrame_configuration]
  rfl

theorem State.configuration_jack (s : State) (j : JackIx) : s.configuration.jacks[j] =
    if (s.jack j).live.state = .undefined then none
    else some ⟨(s.jack j).station, (s.jack j).group, (s.jack j).sector⟩ := by
  have entry : s.configuration.jacks[j] = (s.jack j).definition := Vector.getElem_map ..
  rw [entry, Jack.definition, Jack.defined]
  by_cases h : (s.jack j).live.state = .undefined <;> simp [h]

theorem State.configuration_sector (s : State) (k : SectorIx) : s.configuration.sectors[k] =
    if (s.sector k).defined then some ⟨(s.sector k).probe⟩ else none :=
  Vector.getElem_map ..

theorem State.configuration_speed (s : State) (p : Port) : s.configuration.speeds[p.ix] = (s.port p).speed :=
  Vector.getElem_map ..

/-! ### The start of a load or a factory restore (section 10.3) -/

theorem serveConfigStart_linkBlind (op : StoreOp) : LinkBlind (serveConfigStart op) := fun _ _ =>
  ite_withLink Iff.rfl rfl (ite_withLink Iff.rfl rfl rfl)

theorem serveConfigStart_moving (op : StoreOp) (moving : s.mode = .rise ∨ s.mode = .crawl) :
    serveConfigStart op s = (s, .refuse .mode 0) := by
  rw [serveConfigStart, Mode.settingUp, (Mode.moving_iff _).mpr moving]
  rfl

theorem Mode.not_moving {m : Mode} (setting : m = .survey ∨ m = .ready) : m.moving = false := by
  rcases setting with rfl | rfl <;> rfl

theorem serveConfigStart_granted (op : StoreOp) (setting : s.mode = .survey ∨ s.mode = .ready)
    (live : s.anyGrant = true) : serveConfigStart op s = (s, .refuse .state 1) := by
  rw [serveConfigStart, Mode.settingUp, Mode.not_moving setting, live]
  rfl

theorem serveConfigStart_served (op : StoreOp) (setting : s.mode = .survey ∨ s.mode = .ready)
    (free : s.anyGrant = false) : serveConfigStart op s = ({ s with storeOp := some op }, .serve) := by
  rw [serveConfigStart, Mode.settingUp, Mode.not_moving setting, free]
  rfl

theorem State.anyGrant_iff : s.anyGrant = true ↔ ∃ j, s.grant? j ≠ none := by
  rw [← Bool.not_eq_false, State.anyGrant_eq_false_iff, not_forall]

theorem configLoad_answers {reply : Reply} {a : Answer} (hears : s.Hears .console)
    (served : serveConfigStart .load s = (u, reply)) (answer : reply.answer? 0x5B = some a) :
    Answered (.configLoad .console item []) .console a s u :=
  request_answers (serveConfigStart_linkBlind .load) hears rfl rfl served answer

theorem configFactory_answers {reply : Reply} {a : Answer} (hears : s.Hears .console)
    (served : serveConfigStart .factory s = (u, reply)) (answer : reply.answer? 0x5C = some a) :
    Answered (.configFactory .console item []) .console a s u :=
  request_answers (serveConfigStart_linkBlind .factory) hears rfl rfl served answer

theorem serveConfigStart_served_afterFrame (op : StoreOp) (setting : s.mode = .survey ∨ s.mode = .ready)
    (free : s.anyGrant = false) (l : Link) :
    serveConfigStart op (s.withLink l) = (State.withLink { s with storeOp := some op } l, .serve) := by
  rw [serveConfigStart_linkBlind, serveConfigStart_served op setting free]

/-! ### The end of a save (R168) -/

theorem State.respond_accept (s : State) (p : Port) (code : Byte) (payload : List Byte) :
    s.respond p code (.accept payload) =
      s.setPort p { s.port p with receiver := .answering ⟨.accept, code, payload⟩ } :=
  State.respond_answer s p rfl

theorem State.respond_refuse (s : State) (p : Port) (code : Byte) (cause : RefuseCode) (detail : Nat) :
    s.respond p code (.refuse cause detail) = s.setPort p { s.port p with
      receiver := .answering ⟨.refuse, code, refusal cause detail⟩
      counters := { (s.port p).counters with refused := sat16 ((s.port p).counters.refused + 1) } } :=
  State.respond_answer s p rfl

/-- The end of a save finds its snapshot in the store operation. -/
theorem execConfigSaveEnd_leaves {snapshot : Configuration} {serial : Nat} (good : Bool) (running : s.phase = .running)
    (saving : s.storeOp = some (.save snapshot serial)) (ends : s.endSave snapshot serial good = u) :
    Leaves (.configSaveEnd good) s u := by
  refine leaves_of_whenRunning (execConfigSaveEnd.eq_def good s) running ?_
  rw [saving]
  exact ends

end Sys2Proof.Machine

open Sys2Proof Sys2Proof.Machine

/-- Settles O47: each request by its tests in order, and each end of a save by what its read-back found. -/
theorem storeRequestsAreServed : Obligations.StoreRequestsAreServed := by
  refine ⟨fun s item hears => ?_, fun s snapshot serial running saving => ⟨?_, ?_⟩,
    fun s item hears => ⟨?_, ?_⟩⟩
  · exact ⟨s.configuration, configSave_served hears, s.configuration_jack, s.configuration_sector, rfl,
      s.configuration_speed⟩
  · exact execConfigSaveEnd_leaves true running saving (State.respond_accept ..)
  · exact execConfigSaveEnd_leaves false running saving (State.respond_refuse ..)
  · intro moving
    exact ⟨configLoad_answers hears (serveConfigStart_moving .load moving) rfl,
      configFactory_answers hears (serveConfigStart_moving .factory moving) rfl⟩
  · intro setting
    refine ⟨fun live => ?_, fun idle => ?_⟩
    · have granted := State.anyGrant_iff.mpr live
      exact ⟨configLoad_answers hears (serveConfigStart_granted .load setting granted) rfl,
        configFactory_answers hears (serveConfigStart_granted .factory setting granted) rfl⟩
    · have free : s.anyGrant = false := by rwa [← Bool.not_eq_true, State.anyGrant_iff]
      exact ⟨served_of_request rfl hears rfl rfl rfl (serveConfigStart_served_afterFrame .load setting free _),
        served_of_request rfl hears rfl rfl rfl (serveConfigStart_served_afterFrame .factory setting free _)⟩

end

section
/-! SUPPORT. The end of a load and of a factory restore (R169): the sectors it retires, and the answer it leaves. -/

namespace Sys2Proof.Machine

variable {s u : State} {c : Configuration}

/-! ### The sectors that a refresh releases (R38) -/

/-- A refresh under a plan takes a layer of the sector from clear to released. -/
def Sector.newlyReleases (plan : Plan) (x : Sector) : Bool :=
  x.live.chain.any fun l => !l.released && decide (plan.rel l.mixClass ≤ l.maturity)

theorem State.newlyReleased_eq (s : State) :
    s.newlyReleased = (List.finRange 24).filter fun k => (s.sector k).newlyReleases s.active := rfl

theorem State.newlyReleased_contains (s : State) (k : SectorIx) :
    s.newlyReleased.contains k = (s.sector k).newlyReleases s.active := by
  rw [State.newlyReleased_eq, Bool.eq_iff_iff]
  simp [List.mem_finRange]

/-! ### What a configuration replaces (R169) -/

theorem lostSlots_eq (chains : SectorIx → List Layer) (c : Configuration) :
    lostSlots chains c =
      (List.finRange 24).flatMap fun k : SectorIx => if c.sectors[k] = none then (chains k).map Layer.slot else [] := by
  unfold lostSlots
  congr 1
  funext k
  cases c.sectors[k] <;> rfl

theorem Jack.reconfigure_live (j : Jack) (d : JackDef) :
    j.reconfigure (some d) = ⟨d.station, d.group, d.sector,
      if j.live.state = .undefined then { JackLive.default with state := .unsurveyed } else j.live⟩ := by
  by_cases h : j.live.state = .undefined <;> simp [Jack.reconfigure, Jack.defined, JackLive.fresh, h]

/-- The records replaced, from what becomes of each jack and each sector. -/
theorem State.replaceConfiguration_of {jacks : JackIx → Jack} {sectors : SectorIx → Sector}
    (jack : ∀ j, (s.jack j).reconfigure c.jacks[j] = jacks j)
    (sector : ∀ k, (s.sector k).reconfigure c.sectors[k] = sectors k) :
    s.replaceConfiguration c = State.setSpeeds
      { s with
        jacks := Vector.ofFn jacks
        sectors := Vector.ofFn sectors
        freeList := ((List.finRange 24).flatMap fun k : SectorIx =>
          if c.sectors[k] = none then (s.sector k).live.chain.map Layer.slot else []).reverse ++ s.freeList
        active := c.plan
        staged := c.plan
        planSerial := (s.planSerial + 1) % 65536
        planRejected := false } c.speeds := by
  rw [State.replaceConfiguration, lostSlots_eq, funext jack, funext sector]
  rfl

theorem State.replaceConfiguration_active (s : State) (c : Configuration) :
    (s.replaceConfiguration c).active = c.plan :=
  congrArg State.active (State.setSpeeds_ports_alone _ c.speeds)

/-- The change that an end makes, from the deck with its definitions replaced: its two reasons to retire a sector. -/
theorem State.adopt_of {t : State} {changed : SectorIx → Bool} (records : s.replaceConfiguration c = t)
    (retires : ∀ k, changed k = (membersChanged s.jacks t.jacks k || (t.sector k).newlyReleases c.plan)) :
    s.adopt c = (t.refreshAll.retireSectors ((List.finRange 24).filter changed)).placeExposed.deriveMode.commit := by
  have active : t.active = c.plan := by rw [← records, State.replaceConfiguration_active]
  have handed : ((List.finRange 24).filter fun k => membersChanged s.jacks t.jacks k || t.newlyReleased.contains k) =
      (List.finRange 24).filter changed := by
    refine List.filter_congr fun k _ => ?_
    rw [retires, State.newlyReleased_contains, active]
  rw [State.adopt, records, handed]

/-! ### The ends (R169) -/

theorem execConfigLoadEnd_leaves {intact : Bool} (running : s.phase = .running) (loading : s.storeOp = some .load)
    (ends : s.endLoad intact = u) : Leaves (.configLoadEnd intact) s u := by
  refine leaves_of_whenRunning (execConfigLoadEnd.eq_def intact s) running ?_
  rw [loading]
  exact ends

theorem execConfigFactoryEnd_leaves (running : s.phase = .running) (restoring : s.storeOp = some .factory)
    (ends : s.endFactory = u) : Leaves .configFactoryEnd s u := by
  refine leaves_of_whenRunning (execConfigFactoryEnd.eq_def s) running ?_
  rw [restoring]
  exact ends

theorem State.endLoad_bad {intact : Bool} (bad : s.store.checkGood = false ∨ intact = false) :
    s.endLoad intact = State.respond { s with storeOp := none, storeBad := true, store := s.store.found intact }
      .console Request.configLoad.code (.refuse .state 2) := by
  have differs : s.storeMatches intact = false := by
    rw [State.storeMatches, Bool.and_eq_false_iff]
    exact bad.symm
  rw [State.endLoad, differs]
  rfl

theorem State.endLoad_good (good : s.store.checkGood = true) :
    s.endLoad true = (State.adopt { s with storeOp := none, storeBad := false } s.store.contents).respond .console
      Request.configLoad.code
        (.accept (State.adopt { s with storeOp := none, storeBad := false } s.store.contents).adoptBytes) := by
  rw [State.endLoad, State.storeMatches, good]
  rfl

end Sys2Proof.Machine

open Sys2Proof Sys2Proof.Machine

/-- Settles O48: the change that an end makes is `State.adopt`, and its answer is the one of `State.respond`. -/
theorem loadEndReplacesTheConfiguration : Obligations.LoadEndReplacesTheConfiguration := by
  intro s running refuse accept adopted
  have adopts : ∀ t c, t.adopt c = adopted t c := by
    intro t c
    refine State.adopt_of (State.replaceConfiguration_of (fun j => ?_) fun k => ?_) fun k => rfl
    · cases c.jacks[j] with
      | none => rfl
      | some d => exact (t.jack j).reconfigure_live d
    · cases c.sectors[k] <;> rfl
  refine ⟨fun loading intact => ⟨?_, fun bad => ?_⟩, fun restoring => ?_⟩
  · rintro good rfl
    refine execConfigLoadEnd_leaves running loading ?_
    rw [State.endLoad_good good, adopts, State.respond_accept]
    rfl
  · refine execConfigLoadEnd_leaves running loading ?_
    rw [State.endLoad_bad bad, State.respond_refuse]
    rfl
  · refine execConfigFactoryEnd_leaves running restoring ?_
    rw [State.endFactory, adopts, State.respond_accept]
    rfl

end

section
/-! SUPPORT. What CLEAR DECK leaves (R172, R173): the records of a cleared deck and the mode they give it. -/

namespace Sys2Proof.Machine

variable {s u : State} {item : Item}

/-! ### The cleared deck (R172) -/

theorem Jack.clear_unsurveyed_iff (j : Jack) : j.clear.live.state = .unsurveyed ↔ j.live.state ≠ .undefined := by
  by_cases h : j.live.state = .undefined <;>
    simp [Jack.clear, Jack.defined, h, Jack.undefined, JackLive.default, JackLive.fresh]

theorem Sector.clear_unbased (k : Sector) : k.clear.unbased = k.defined := by
  cases h : k.defined <;>
    simp [Sector.clear, h, Sector.unbased_iff, ← Bool.not_eq_true, Sector.undefined, SectorLive.default]

/-- No object is defined. -/
def State.Empty (s : State) : Prop :=
  (∀ j : JackIx, (s.jack j).live.state = .undefined) ∧ ∀ k : SectorIx, (s.sector k).defined = false

/-- A cleared deck is incomplete unless it is empty: its jacks are UNSURVEYED and its sectors UNBASED. -/
theorem State.clearLive_incomplete_iff : s.clearLive.incomplete = true ↔ ¬ s.Empty := by
  simp only [State.incomplete_iff, State.clearLive_jack, State.clearLive_sector, Jack.clear_unsurveyed_iff,
    Sector.clear_unbased, State.Empty, not_and_or, not_forall, Bool.not_eq_false]

/-- The hold set has no part in what makes a deck incomplete. -/
theorem State.keepLine_incomplete : s.keepLine.incomplete = s.incomplete := rfl

/-! ### CLEAR DECK (R173) -/

theorem Jack.clear_eq : Jack.clear = fun j => if j.live.state = .undefined then Jack.undefined
    else { j with live := { JackLive.default with state := .unsurveyed } } := by
  funext j
  by_cases h : j.live.state = .undefined <;> simp [Jack.clear, Jack.defined, JackLive.fresh, h]

theorem Sector.clear_eq : Sector.clear = fun k =>
    if k.defined then { k with live := SectorLive.default } else Sector.undefined := rfl

section WithLink

variable (s : State) (l : Link)

@[simp] theorem State.withLink_clearLive : (s.withLink l).clearLive = s.clearLive.withLink l := by
  simp only [State.clearLive, State.withLink]
@[simp] theorem State.withLink_keepLine : (s.withLink l).keepLine = s.keepLine.withLink l := rfl
@[simp] theorem State.withLink_deriveMode : (s.withLink l).deriveMode = s.deriveMode.withLink l := rfl
@[simp] theorem State.withLink_rewrite : (s.withLink l).rewrite = s.rewrite.withLink l := rfl

end WithLink

theorem serveClearDeck_linkBlind : LinkBlind serveClearDeck := by
  intro s l
  refine ite_withLink Iff.rfl rfl (ite_withLink Iff.rfl rfl ?_)
  dsimp only
  rw [State.withLink_clearLive, State.withLink_keepLine, State.withLink_deriveMode, State.withLink_rewrite]
  generalize s.clearLive.keepLine.deriveMode.rewrite = t
  rfl

theorem clearDeck_answers {reply : Reply} {a : Answer} (hears : s.Hears .console)
    (served : serveClearDeck s = (u, reply)) (answer : reply.answer? 0x5D = some a) :
    Answered (.clearDeck .console item []) .console a s u :=
  request_answers serveClearDeck_linkBlind hears rfl rfl served answer

theorem serveClearDeck_otherMode (mode : s.mode ≠ .ready) : serveClearDeck s = (s, .refuse .mode 0) := if_pos mode

theorem serveClearDeck_granted (mode : s.mode = .ready) (live : s.anyGrant = true) :
    serveClearDeck s = (s, .refuse .state 1) := by
  rw [serveClearDeck, if_neg (not_not.mpr mode), if_pos live]

theorem serveClearDeck_cleared (mode : s.mode = .ready) (free : s.anyGrant = false) :
    serveClearDeck s = (s.clearLive.keepLine.deriveMode.rewrite,
      .accept (be1 s.clearLive.keepLine.deriveMode.mode.code)) := by
  rw [serveClearDeck, if_neg (not_not.mpr mode), free, if_neg Bool.false_ne_true]
  generalize s.clearLive.keepLine.deriveMode = t
  rfl

/-- The mode of a deck that is incomplete unless a condition holds. -/
theorem State.deriveMode_of {complete : Prop} [Decidable complete] (h : s.incomplete = true ↔ ¬ complete) :
    s.deriveMode = { s with mode := if complete then .ready else .survey } := by
  rw [State.deriveMode]
  by_cases hc : complete <;> simp [h, hc]

end Sys2Proof.Machine

open Sys2Proof Sys2Proof.Machine

/-- Settles O49: the three tests in order, and a cleared deck whose mode is SURVEY unless nothing is defined. -/
theorem clearDeckClears : Obligations.ClearDeckClears := by
  intro s item hears
  refine ⟨fun mode => ?_, fun mode live => ?_, fun mode idle => ?_⟩
  · exact clearDeck_answers hears (serveClearDeck_otherMode mode) rfl
  · exact clearDeck_answers hears (serveClearDeck_granted mode (State.anyGrant_iff.mpr live)) rfl
  · intro empty settled
    have cleared : s.clearLive.keepLine.incomplete = true ↔ ¬ empty := by
      rw [State.keepLine_incomplete, State.clearLive_incomplete_iff]
      rfl
    refine clearDeck_answers hears (reply := .accept (be1 settled.code)) ?_ rfl
    rw [serveClearDeck_cleared mode (State.anyGrant_eq_false_iff.mpr idle), State.deriveMode_of cleared]
    simp only [State.clearLive, State.keepLine, Jack.clear_eq, Sector.clear_eq, freshPool, settled]

end

section
/-! SUPPORT. The retained-loss path (R172): what it makes of each record, and the outputs of the deck that it leaves. -/

namespace Sys2Proof.Machine

variable {s : State} {c : Configuration}

/-! ### A deck on which no jack bears the level -/

/-- Every jack is undefined or UNSURVEYED. -/
def State.Bare (s : State) : Prop :=
  ∀ j, (s.jack j).live.state = .undefined ∨ (s.jack j).live.state = .unsurveyed

theorem State.Bare.of_mem (bare : s.Bare) {x : Jack} (hx : x ∈ s.jacks.toList) :
    x.live.state = .undefined ∨ x.live.state = .unsurveyed := by
  obtain ⟨i, hi, rfl⟩ := Vector.mem_iff_getElem.mp (Vector.mem_toList_iff.mp hx)
  exact bare ⟨i, hi⟩

theorem State.Bare.levelBearing (bare : s.Bare) {x : Jack} (hx : x ∈ s.jacks.toList) : x.levelBearing = false := by
  rcases bare.of_mem hx with e | e <;> rw [Jack.levelBearing, e] <;> rfl

theorem State.Bare.levelAlert (bare : s.Bare) : s.levelAlert = false := by
  have heights : s.levelHeights = [] := by
    rw [State.levelHeights, List.filterMap_eq_nil_iff]
    intro x hx
    rw [bare.levelBearing hx]
    rfl
  rw [State.levelAlert, State.spread, State.hMin, heights]
  rfl

theorem State.Bare.anyLag (bare : s.Bare) : s.anyLag = false := by
  have low : ∀ k, s.dLow k = none := fun k => by
    have heights : s.sectorHeights k = [] := by
      rw [State.sectorHeights, List.filterMap_eq_nil_iff]
      intro x hx
      rw [bare.levelBearing hx]
      rfl
    rw [State.dLow, heights]
    exact ite_self _
  simp [State.anyLag, State.lag, low]

theorem State.Bare.anyStall (bare : s.Bare) : s.anyStall = false := by
  rw [State.anyStall, List.any_eq_false]
  intro x hx
  rcases bare.of_mem hx with e | e <;> simp [e]

theorem State.Bare.conditions (bare : s.Bare) (holds : s.holds = []) (probes : s.probeCondition = false) :
    s.conditions = Conditions.empty := by
  rw [State.conditions, holds, bare.levelAlert, bare.anyLag, bare.anyStall, probes]
  rfl

/-- The outputs stand as they are: open contacts, a silent sounder, and nothing to close or sound them for. -/
theorem State.settle_of_silent (mode : s.mode.moving = false) (permitA : s.permitA = false)
    (permitB : s.permitB = false) (sounder : s.sounder = ⟨none, 0, Conditions.empty⟩)
    (conditions : s.conditions = Conditions.empty) : s.settle = s := by
  have shut : ∀ st, s.permitOn st = false := fun st => by simp [State.permitOn, mode]
  have silent : s.sounder.reselect (s.phase = .running) s.conditions = s.sounder := by
    rw [conditions, sounder]
    cases decide (s.phase = .running) <;> rfl
  rw [State.settle, (shut .A).trans permitA.symm, (shut .B).trans permitB.symm, silent]

/-! ### The lost deck (R172) -/

theorem State.loseDeck_jack (s : State) (c : Configuration) (j : JackIx) :
    (s.loseDeck c).jack j = (Jack.undefined.reconfigure c.jacks[j]).clear := by
  rw [State.loseDeck_eq, State.clearLive_jack, State.forget_jack]

theorem State.loseDeck_sector (s : State) (c : Configuration) (k : SectorIx) :
    (s.loseDeck c).sector k = (Sector.undefined.reconfigure c.sectors[k]).clear := by
  rw [State.loseDeck_eq, State.clearLive_sector, State.forget_sector]

theorem State.loseDeck_bare (s : State) (c : Configuration) : (s.loseDeck c).Bare := by
  intro j
  rw [State.loseDeck_jack]
  cases c.jacks[j] with
  | none => exact .inl rfl
  | some d => exact .inr rfl

/-- The lost deck is incomplete exactly where the configuration defines an object. -/
theorem State.loseDeck_incomplete (s : State) (c : Configuration) :
    (s.loseDeck c).incomplete = (c.jacks.toList.any Option.isSome || c.sectors.toList.any Option.isSome) := by
  rw [Bool.eq_iff_iff, State.incomplete_iff, Bool.or_eq_true, any_toList_iff, any_toList_iff]
  refine or_congr (exists_congr fun j => ?_) (exists_congr fun k => ?_)
  · rw [State.loseDeck_jack]
    cases c.jacks[j] with
    | none => exact ⟨nofun, nofun⟩
    | some d => exact ⟨fun _ => rfl, fun _ => rfl⟩
  · rw [State.loseDeck_sector, Sector.clear_unbased]
    cases c.sectors[k] <;> rfl

/-- The records of the lost deck, from what becomes of each definition. -/
theorem State.loseDeck_of {jacks : Option JackDef → Jack} {sectors : Option SectorDef → Sector}
    (jack : ∀ d, (Jack.undefined.reconfigure d).clear = jacks d)
    (sector : ∀ d, (Sector.undefined.reconfigure d).clear = sectors d) :
    s.loseDeck c =
      { s with
        jacks := c.jacks.map jacks
        sectors := c.sectors.map sectors
        freeList := List.finRange 256
        holds := []
        crawlEntry := none
        planSerial := 0
        counters := DeckCounters.zero
        active := c.plan
        retained := { s.retained with counter := 0, stamp := 0, runMark := true } } := by
  have jackTable : (Vector.ofFn fun j : JackIx => Jack.undefined.reconfigure c.jacks[j]).map Jack.clear =
      c.jacks.map jacks := by
    ext1 i hi
    simp [jack]
  have sectorTable : (Vector.ofFn fun k : SectorIx => Sector.undefined.reconfigure c.sectors[k]).map Sector.clear =
      c.sectors.map sectors := by
    ext1 i hi
    simp [sector]
  rw [← jackTable, ← sectorTable]
  simp only [State.loseDeck, State.clearLive, freshPool]

/-! ### The start-up sequence that finds a memory bad (R171) -/

theorem execStartUpSequence_starting {found : Bool} (starting : s.phase = .starting found)
    (retainedIntact storeIntact : Bool) (battery : Nat) :
    execStartUpSequence retainedIntact storeIntact battery s =
      .next (s.startUp found retainedIntact storeIntact battery).settle := by
  rw [execStartUpSequence, starting]

theorem State.startUpFound_lost {storeGood retainedGood : Bool} (lost : (storeGood && retainedGood) = false)
    (found : (if storeGood then s.store.contents else Configuration.factory) = c) (battery : Nat) :
    s.startUpFound storeGood retainedGood battery =
      ((State.loseDeck { s with storeBad := !storeGood, retainLost := !retainedGood } c).deriveMode.startBlocks c
        battery).rewrite := by
  rw [State.startUpFound, found, lost]
  rfl

/-- The outputs of the lost deck are at rest already: open contacts and a silent sounder. -/
theorem State.lostStart_settle (s : State) (c : Configuration) (battery : Nat) :
    ((s.loseDeck c).deriveMode.startBlocks c battery).rewrite.settle =
      ((s.loseDeck c).deriveMode.startBlocks c battery).rewrite := by
  have bare := s.loseDeck_bare c
  have holds : (s.loseDeck c).holds = [] := rfl
  generalize s.loseDeck c = t at bare holds ⊢
  have probes : (t.deriveMode.startBlocks c battery).rewrite.probeCondition = false := by
    show (Vector.replicate 12 Probe.fresh).toList.any _ = false
    rw [Vector.toList_replicate, List.any_replicate]
    rfl
  have mode : t.deriveMode.mode.moving = false := by
    rw [State.deriveMode_mode]
    cases t.incomplete <;> rfl
  exact State.settle_of_silent mode rfl rfl rfl (State.Bare.conditions bare holds probes)

/-- The state that the retained-loss path starts from, from what becomes of each definition. -/
theorem State.lostStart_of {jacks : Option JackDef → Jack} {sectors : Option SectorDef → Sector}
    (jack : ∀ d, (Jack.undefined.reconfigure d).clear = jacks d)
    (sector : ∀ d, (Sector.undefined.reconfigure d).clear = sectors d) (battery : Nat) :
    (s.loseDeck c).deriveMode.startBlocks c battery =
      { s with
        jacks := c.jacks.map jacks
        sectors := c.sectors.map sectors
        freeList := List.finRange 256
        holds := []
        crawlEntry := none
        planSerial := 0
        counters := DeckCounters.zero
        retained := { s.retained with counter := 0, stamp := 0, runMark := true }
        active := c.plan
        staged := c.plan
        planRejected := false
        mode := if c.jacks.toList.any Option.isSome || c.sectors.toList.any Option.isSome then .survey else .ready
        phase := .running
        grants := Vector.replicate 96 none
        probes := Vector.replicate 12 Probe.fresh
        ports := c.speeds.map fun v : Speed => ⟨.listening, v, v, PortCounters.zero⟩
        aliveA := none
        aliveB := none
        holdFilter := .undecided
        holdTimer := true
        sampleTimer := true
        intervalTimer := true
        storeOp := none
        afterAnswer := .nothing
        permitA := false
        permitB := false
        sounder := ⟨none, 0, Conditions.empty⟩
        batteryLow := if battery < 2700 then true else if battery < 2900 then s.batteryLow else false } := by
  have fresh : PortRec.fresh = fun v : Speed => ⟨.listening, v, v, PortCounters.zero⟩ := rfl
  rw [State.deriveMode, State.loseDeck_incomplete, State.loseDeck_of jack sector]
  simp only [State.startBlocks, batteryAfter_eq, fresh]

end Sys2Proof.Machine

open Sys2Proof Sys2Proof.Machine

/-- Settles O52: the retained-loss path leaves the records of `State.lostStart_of`, whose outputs are at rest. -/
theorem lostStartUpClearsTheDeck : Obligations.LostStartUpClearsTheDeck := by
  intro s found retainedIntact storeIntact battery starting storeGood retainedGood lost c t
  have store : s.storeMatches storeIntact = storeGood := Bool.and_comm ..
  have retained : (s.retainedMatches retainedIntact && s.retained.runMark && !found) = retainedGood := by
    rw [State.retainedMatches, Bool.and_comm retainedIntact]
  have contents : (if storeGood then (s.store.found storeIntact).contents else Configuration.factory) = c := by
    rw [Store.found_contents]
  refine (execStartUpSequence_starting starting ..).trans (congrArg Host.Outcome.next ?_)
  rw [State.startUp, store, retained, State.startUpFound_lost lost contents, State.lostStart_settle]
  refine congrArg State.rewrite (State.lostStart_of (fun d => ?_) (fun d => ?_) battery)
  · cases d <;> rfl
  · cases d <;> rfl

end

section
/-! SUPPORT. The retained-loss path under the factory image (section 11.2): tables of one record each. -/

namespace Sys2Proof.Machine

variable {s : State}

/-! ### The factory image (R167) -/

theorem Configuration.factory_map_jacks {α : Type} (f : Option JackDef → α) :
    Configuration.factory.jacks.map f = Vector.replicate 96 (f none) := Vector.map_replicate

theorem Configuration.factory_map_sectors {α : Type} (f : Option SectorDef → α) :
    Configuration.factory.sectors.map f = Vector.replicate 24 (f none) := Vector.map_replicate

theorem Configuration.factory_map_speeds {α : Type} (f : Speed → α) :
    Configuration.factory.speeds.map f = Vector.replicate 4 (f .b57600) := Vector.map_replicate

/-- The factory image defines nothing. -/
theorem Configuration.factory_empty :
    (Configuration.factory.jacks.toList.any Option.isSome || Configuration.factory.sectors.toList.any Option.isSome) =
      false := by
  rw [Configuration.factory, Vector.toList_replicate, Vector.toList_replicate, List.any_replicate, List.any_replicate]
  rfl

/-! ### The state of the first start-up (section 11.2) -/

/-- State.reset under the input lines and the queue that a start-up leaves as they are, and any retained memory. -/
def State.resetUnder (s : State) (m : Retained) : State :=
  { State.reset with holdLow := s.holdLow, resetLow := s.resetLow, pending := s.pending, retained := m }

/-- A write of an empty deck makes retained memory that of State.reset: it keeps the stamp, the counter and the run mark
alone. -/
theorem State.resetUnder_rewrite (s : State) (m : Retained) :
    (s.resetUnder { m with counter := 0, stamp := 0, runMark := true }).rewrite = s.resetUnder Retained.cleared := by
  have copy : State.reset.liveCopy = RetainedCopy.cleared :=
    (State.retainedMirrors_iff.mp State.reset_retainedMirrors).symm
  have live : (s.resetUnder { m with counter := 0, stamp := 0, runMark := true }).liveCopy = RetainedCopy.cleared := by
    rw [← copy]
    simp only [State.liveCopy, State.resetUnder, State.reset, Retained.cleared, RetainedCopy.cleared]
  rw [State.rewrite, live]
  simp only [State.resetUnder, Retained.cleared]

theorem State.lostStart_factory {battery : Nat} (charged : 2900 ≤ battery)
    (store : s.store = Store.holding .factory) (good : s.storeBad = false) (lost : s.retainLost = true) :
    (s.loseDeck .factory).deriveMode.startBlocks .factory battery =
      s.resetUnder { s.retained with counter := 0, stamp := 0, runMark := true } := by
  rw [State.lostStart_of (fun _ => rfl) (fun _ => rfl), Configuration.factory_empty,
    Configuration.factory_map_jacks, Configuration.factory_map_sectors, Configuration.factory_map_speeds,
    if_neg Bool.false_ne_true, if_neg (show ¬ battery < 2700 by omega), if_neg (show ¬ battery < 2900 by omega)]
  simp only [State.resetUnder, State.reset, store, good, lost, freshPool]
  rfl

end Sys2Proof.Machine

open Sys2Proof Sys2Proof.Machine

/-- Settles O4: by evaluation, and by the retained-loss path under the factory image. -/
theorem firstStartUpGivesReset : Obligations.FirstStartUpGivesReset := by
  refine ⟨?_, fun s found intact battery starting store spoiled charged => ?_⟩
  · intro live bare zero kept image
    exact ⟨rfl, rfl, rfl, rfl, rfl, rfl, rfl, rfl, rfl⟩
  · have good : s.storeMatches true = true := by rw [State.storeMatches, store]; exact Store.holding_checkGood _
    have lost : s.retainedMatches intact = false := by rw [State.retainedMatches, spoiled, Bool.and_false]
    refine (execStartUpSequence_starting starting ..).trans (congrArg Host.Outcome.next ?_)
    rw [State.startUp, good, lost, State.startUpFound_lost rfl (c := .factory) (by rw [store]; rfl),
      State.lostStart_settle]
    exact (congrArg State.rewrite (State.lostStart_factory charged (by exact store) rfl rfl)).trans
      (State.resetUnder_rewrite s s.retained)
end

section
/-! SUPPORT. The good start-up (R171): the records rebuilt from retained memory, and the outage credited to them
(R62). -/

namespace Sys2Proof.Machine

variable {s t : State} {c : Configuration} {plan : Plan}

/-! ### The records rebuilt (R20, R44, R82) -/

theorem lostGrants_eq (m : Retained) (c : Configuration) :
    lostGrants m c = ((List.finRange 96).filter fun j : JackIx =>
      decide (c.jacks[j] ≠ none ∧ m.jacks[j].state = .granted)).length := by
  unfold lostGrants
  congr 2
  funext j
  rw [Bool.eq_iff_iff]
  simp [Option.isSome_iff_ne_none]

theorem rebuildJack_some (v : JackLive) (d : JackDef) :
    rebuildJack v (some d) = ⟨d.station, d.group, d.sector,
      match v.state with
      | .undefined => { JackLive.default with state := .unsurveyed }
      | .granted => { v with state := .stalled, stallCount := sat16 (v.stallCount + 1) }
      | _ => v⟩ := by
  obtain ⟨state⟩ := v
  cases state <;> rfl

/-- The records rebuilt, from what becomes of each jack and each sector. -/
theorem State.rebuildRecords_of {jacks : JackIx → Jack} {sectors : SectorIx → Sector}
    (jack : ∀ j, rebuildJack s.retained.jacks[j] c.jacks[j] = jacks j)
    (sector : ∀ k, rebuildSector s.retained.sectors[k] c.sectors[k] = sectors k) :
    s.rebuildRecords c =
      { s with
        jacks := Vector.ofFn jacks
        sectors := Vector.ofFn sectors
        freeList := ((List.finRange 24).flatMap fun k : SectorIx =>
          if c.sectors[k] = none then s.retained.sectors[k].live.chain.map Layer.slot else []).reverse ++
            s.retained.freeList
        holds := s.retained.holds.filter fun h => h.reason != .crawlLimit
        crawlEntry := s.retained.crawlEntry
        planSerial := (s.retained.planSerial + 1) % 65536
        counters := { s.retained.counters with expiries := sat32 (s.retained.counters.expiries +
          ((List.finRange 96).filter fun j : JackIx =>
            decide (c.jacks[j] ≠ none ∧ s.retained.jacks[j].state = .granted)).length) }
        active := c.plan } := by
  rw [State.rebuildRecords, lostSlots_eq, lostGrants_eq, funext jack, funext sector]
  rfl

theorem State.rebuild_eq (s : State) (c : Configuration) :
    s.rebuild c = (s.rebuildRecords c).refreshAll.retireSectors
      ((List.finRange 24).filter fun k => ((s.rebuildRecords c).sector k).newlyReleases c.plan) := rfl

/-! ### The credit of an outage (R62) -/

/-- An event of the chains and the hold set, which leaves the memories, the plan and the battery state alone. -/
structure Delivery (s t : State) : Prop extends Unwritten s t where
  active : t.active = s.active
  batteryLow : t.batteryLow = s.batteryLow

theorem Delivery.refl (s : State) : Delivery s s := ⟨.refl s, rfl, rfl⟩

theorem Delivery.retireSector (h : Delivery s t) (k : SectorIx) : Delivery s (t.retireSector k) := by
  refine ⟨h.toUnwritten.retireSector k, (t.retireSector_active k).trans h.active, ?_⟩
  rcases t.retireSector_cases k with e | ⟨_, _, _, e⟩ <;> rw [e] <;> exact h.batteryLow

theorem Delivery.retireSectors (h : Delivery s t) (ks : List SectorIx) : Delivery s (t.retireSectors ks) :=
  State.retireSectors_induction (P := Delivery s) (fun _ k h => h.retireSector k) ks t h

theorem Delivery.refreshAll (h : Delivery s t) : Delivery s t.refreshAll :=
  ⟨h.toUnwritten.refreshAll, h.active, h.batteryLow⟩

theorem Delivery.placeExposed (h : Delivery s t) : Delivery s t.placeExposed := by
  refine ⟨h.toUnwritten.placeExposed, ?_, ?_⟩ <;> rcases t.placeExposed_cases with e | ⟨_, _, _, e⟩ <;> rw [e]
  exacts [h.active, h.active, h.batteryLow, h.batteryLow]

theorem Delivery.deliver (h : Delivery s t) (k : SectorIx) (n : Nat) : Delivery s (t.deliver k n) := by
  rcases t.deliver_cases k n with e | e <;> rw [e]
  · exact ⟨h.toUnwritten.setSectorLive .., h.active, h.batteryLow⟩
  · exact Delivery.retireSector ⟨h.toUnwritten.setSectorLive .., h.active, h.batteryLow⟩ k

theorem Delivery.interval (h : Delivery s t) (inc : State → SectorIx → Nat) : Delivery s (t.interval inc) :=
  State.interval_induction (P := Delivery s) t (fun _ k n h => h.deliver k n) inc h

theorem Delivery.credit (h : Delivery s t) (n : Nat) : Delivery s (t.credit n) :=
  State.credit_induction (P := Delivery s) t (fun _ inc h => h.interval inc) h n

/-- No delivery changes the plan, so a credited interval delivers one increment throughout. -/
theorem State.interval_credited (active : s.active = plan) :
    (s.interval fun t _ => increment t.active t.active.fallback) =
      s.interval fun _ _ => increment plan plan.fallback := by
  unfold State.interval
  generalize List.finRange 24 = ks
  induction ks generalizing s with
  | nil => rfl
  | cons k ks ih =>
    subst active
    refine ih ?_
    dsimp only
    split
    · exact (Delivery.deliver (.refl s) ..).active
    · rfl

theorem State.credit_eq_iterate (active : s.active = plan) (n : Nat) :
    s.credit n = Nat.iterate (fun t => t.interval fun _ _ => increment plan plan.fallback) n s := by
  induction n with
  | zero => rfl
  | succ n ih =>
    have kept : (s.credit n).active = plan := (Delivery.credit (.refl s) n).active.trans active
    rw [State.credit_succ, State.interval_credited kept, Function.iterate_succ_apply', ih]

/-- Step 3 of R171, from the memory and the plan of the deck that it finds. -/
theorem State.creditOutage_eq {m : Retained} (memory : s.retained = m) (active : s.active = plan) :
    s.creditOutage = State.placeExposed
      { Nat.iterate (fun t => State.interval t fun _ _ => increment plan plan.fallback) (creditIntervals m) s with
        retained := { m with stamp := m.counter } } := by
  have kept : (s.credit (creditIntervals m)).retained = m := (Unwritten.credit (.refl s) _).retained.trans memory
  rw [State.creditOutage, memory, ← State.credit_eq_iterate active]
  dsimp only
  rw [State.clock, kept]

theorem State.creditOutage_active (s : State) : s.creditOutage.active = s.active := by
  have credited := Delivery.credit (.refl s) (creditIntervals s.retained)
  unfold State.creditOutage
  exact (Delivery.placeExposed (.refl _)).active.trans credited.active

theorem State.creditOutage_batteryLow (s : State) : s.creditOutage.batteryLow = s.batteryLow := by
  have credited := Delivery.credit (.refl s) (creditIntervals s.retained)
  unfold State.creditOutage
  exact (Delivery.placeExposed (.refl _)).batteryLow.trans credited.batteryLow

/-! ### The start-up values (R171) -/

theorem State.withPermits_rewrite (s : State) (a b : Bool) :
    (s.withPermits a b).rewrite = s.rewrite.withPermits a b := rfl

/-- The contacts are driven again at the end of a sequence, whatever it has set them to. -/
theorem State.withPermits_settle (s : State) (a b : Bool) : (s.withPermits a b).settle = s.settle := rfl

/-- The start-up values over a deck, but for the contacts. -/
theorem State.goodStart_of (active : s.active = c.plan) (battery : Nat) :
    s.deriveMode.startBlocks c battery =
      State.withPermits { s with
        mode := if s.incomplete then .survey else .ready
        phase := .running
        grants := Vector.replicate 96 none
        probes := Vector.replicate 12 Probe.fresh
        staged := c.plan
        planRejected := false
        ports := c.speeds.map fun v : Speed => ⟨.listening, v, v, PortCounters.zero⟩
        aliveA := none
        aliveB := none
        holdFilter := .undecided
        holdTimer := true
        sampleTimer := true
        intervalTimer := true
        storeOp := none
        afterAnswer := .nothing
        sounder := ⟨none, 0, Conditions.empty⟩
        batteryLow := if battery < 2700 then true else if battery < 2900 then s.batteryLow else false }
        false false := by
  have fresh : PortRec.fresh = fun v : Speed => ⟨.listening, v, v, PortCounters.zero⟩ := rfl
  simp only [State.deriveMode, State.startBlocks, batteryAfter_eq, State.withPermits, active, fresh]

theorem State.startUpFound_good (s : State) (battery : Nat) :
    s.startUpFound true true battery =
      ((State.rebuild { s with storeBad := false, retainLost := false } s.store.contents).creditOutage.deriveMode
        |>.startBlocks s.store.contents battery).rewrite := rfl

end Sys2Proof.Machine

open Sys2Proof Sys2Proof.Machine

/-- Settles O51: the deck of `State.rebuild`, with the outage credited, under the start-up values. -/
theorem goodStartUpRebuildsTheDeck : Obligations.GoodStartUpRebuildsTheDeck := by
  intro s battery starting retainedGood runMark storeGood c m records rebuilt minutes credited stamped
  have store : s.storeMatches true = true := by rw [State.storeMatches, storeGood]; rfl
  have retained : (s.retainedMatches true && s.retained.runMark && !false) = true := by
    rw [State.retainedMatches, retainedGood, runMark]
    rfl
  have recorded : State.rebuildRecords { s with storeBad := false, retainLost := false } c = records := by
    refine State.rebuildRecords_of (fun j => ?_) fun k => ?_
    · cases c.jacks[j] with
      | none => rfl
      | some d => exact rebuildJack_some ..
    · cases c.sectors[k] <;> rfl
  have rebuilds : State.rebuild { s with storeBad := false, retainLost := false } c = rebuilt := by
    rw [State.rebuild_eq, recorded]
    rfl
  have delivered : Delivery records rebuilt := (Delivery.refl records).refreshAll.retireSectors _
  have credits : rebuilt.creditOutage = stamped := State.creditOutage_eq delivered.retained delivered.active
  have planned : stamped.active = c.plan := by rw [← credits, State.creditOutage_active, delivered.active]
  have batteryKept : stamped.batteryLow = s.batteryLow := by
    rw [← credits, State.creditOutage_batteryLow, delivered.batteryLow]
  have same : { s with store := s.store.found true } = s := rfl
  refine (execStartUpSequence_starting starting ..).trans (congrArg Host.Outcome.next ?_)
  rw [State.startUp, store, retained, same, State.startUpFound_good, rebuilds, credits, State.goodStart_of planned,
    State.withPermits_rewrite, State.withPermits_settle, batteryKept]

end

section
/-! SUPPORT. The queue is no part of the deck: each shared operation leaves it as it is (log entry 2). -/

namespace Sys2Proof.Machine

variable (s : State)

/-! ### Holds, modes and layers -/

@[simp] theorem State.placePart_pending (a : HoldSource) (r : HoldReason) (q : Qualifier) :
    (s.placePart a r q).pending = s.pending := by
  rcases s.placePart_cases a r q with ⟨_, e⟩ | ⟨_, e⟩ <;> rw [e]

@[simp] theorem State.placeExposed_pending : s.placeExposed.pending = s.pending := by
  rcases s.placeExposed_cases with e | ⟨_, _, _, e⟩ <;> rw [e]

@[simp] theorem State.placeCrawlLimit_pending : s.placeCrawlLimit.pending = s.pending := by
  rcases s.placeCrawlLimit_cases with e | ⟨_, _, e⟩ <;> rw [e]

@[simp] theorem State.crawlAfter_pending (before : Option Nat) : (s.crawlAfter before).pending = s.pending := by
  rcases s.crawlAfter_cases before with e | ⟨_, _, e⟩ <;> rw [e]

@[simp] theorem State.passMode_pending : s.passMode.pending = s.pending := by
  rcases s.passMode_cases with ⟨_, e⟩ | ⟨_, e⟩ <;> rw [e]

@[simp] theorem State.retireSector_pending (k : SectorIx) : (s.retireSector k).pending = s.pending := by
  rcases s.retireSector_cases k with e | ⟨_, _, _, e⟩ <;> rw [e]

@[simp] theorem State.retireSectors_pending (ks : List SectorIx) : (s.retireSectors ks).pending = s.pending :=
  State.retireSectors_induction (P := fun t => t.pending = s.pending)
    (fun t k same => (t.retireSector_pending k).trans same) ks s rfl

@[simp] theorem State.refreshAll_pending : s.refreshAll.pending = s.pending := rfl

@[simp] theorem State.deliver_pending (k : SectorIx) (n : Nat) : (s.deliver k n).pending = s.pending := by
  rcases s.deliver_cases k n with e | e <;> rw [e]
  · rfl
  · exact State.retireSector_pending ..

@[simp] theorem State.interval_pending (inc : State → SectorIx → Nat) : (s.interval inc).pending = s.pending :=
  State.interval_induction (P := fun t => t.pending = s.pending) s
    (fun t k n same => (t.deliver_pending k n).trans same) inc rfl

@[simp] theorem State.credit_pending (n : Nat) : (s.credit n).pending = s.pending :=
  State.credit_induction (P := fun t => t.pending = s.pending) s
    (fun t inc same => (t.interval_pending inc).trans same) rfl n

@[simp] theorem State.matureDeck_pending : s.matureDeck.pending = s.pending := by simp [State.matureDeck]

@[simp] theorem State.decideLine_pending : s.decideLine.pending = s.pending := by
  unfold State.decideLine
  dsimp only
  split <;> simp

/-! ### The link -/

@[simp] theorem State.goodFrame_pending (p : Port) : (s.goodFrame p).pending = s.pending := by rw [State.goodFrame_eq]

@[simp] theorem State.respond_pending (p : Port) (code : Byte) (r : Reply) :
    (s.respond p code r).pending = s.pending := by
  obtain ⟨x, e, -⟩ := s.respond_cases p code r
  rw [e, State.setPort_pending]

@[simp] theorem State.lengthDiscard_pending (p : Port) : (s.lengthDiscard p).pending = s.pending := by
  rcases s.lengthDiscard_cases p with ⟨_, _, e⟩ | ⟨_, _, e⟩ <;> rw [e]
  exact State.setPort_pending ..

@[simp] theorem State.overrunDiscard_pending (p : Port) : (s.overrunDiscard p).pending = s.pending := rfl

@[simp] theorem State.checkFail_pending (p : Port) (code : Byte) (formed : Nat) :
    (s.checkFail p code formed).pending = s.pending := rfl

@[simp] theorem State.gapDiscard_pending (p : Port) (r : Receiver) : (s.gapDiscard p r).pending = s.pending := rfl

@[simp] theorem State.setSpeed_pending (p : Port) (v : Speed) : (s.setSpeed p v).pending = s.pending := rfl

@[simp] theorem State.setSpeeds_pending (speeds : Vector Speed 4) : (s.setSpeeds speeds).pending = s.pending :=
  List.foldlRecOn (motive := fun t : State => t.pending = s.pending) _ _ rfl fun t same p _ =>
    (t.setSpeed_pending p _).trans same

@[simp] theorem State.halt_pending (ph : Phase) : (s.halt ph).pending = s.pending := by
  unfold State.halt
  rcases s.abortStore_cases with e | e <;> rw [e] <;> rfl

@[simp] theorem State.reopen_pending (p : Port) : (s.reopen p).pending = s.pending := rfl

@[simp] theorem State.afterConsole_pending : s.afterConsole.pending = s.pending := by
  unfold State.afterConsole
  split
  · rfl
  · exact s.halt_pending _
  · exact s.halt_pending _

@[simp] theorem State.answerLeft_pending (p : Port) : (s.answerLeft p).pending = s.pending := by
  unfold State.answerLeft
  split
  · split
    · exact State.afterConsole_pending _
    · rfl
  all_goals rfl

/-! ### Strokes (chapter 5) -/

/-- Each candidate that a demand tries leaves the queue, so the walk does. -/
theorem State.demand_pending (st : Station) (scope : Option (Fin 8)) (most : Nat) :
    (s.demand st scope most).state.pending = s.pending := by
  refine List.foldlRecOn (motive := fun d : Demand => d.state.pending = s.pending) _ _ rfl fun d same j _ => ?_
  unfold Demand.step
  split
  · exact same
  · exact same

@[simp] theorem State.heightMoved_pending (before : State) (j : JackIx) :
    (s.heightMoved before j).pending = s.pending := by
  unfold State.heightMoved
  split
  · rfl
  · dsimp only
    split <;> simp

@[simp] theorem State.doneEntry_pending (j : JackIx) (travel : Nat) : (s.doneEntry j travel).pending = s.pending :=
  State.heightMoved_pending ..

@[simp] theorem State.lateEntry_pending (j : JackIx) (travel : Nat) : (s.lateEntry j travel).pending = s.pending :=
  State.heightMoved_pending ..

@[simp] theorem State.ungrantedEntry_pending (j : JackIx) (travel : Nat) :
    (s.ungrantedEntry j travel).pending = s.pending :=
  (State.heightMoved_pending ..).trans (State.placePart_pending ..)

theorem State.reportEntry_pending (st : Station) (jack travel : Nat) :
    (s.reportEntry st jack travel).1.pending = s.pending := by
  unfold State.reportEntry
  split
  · rfl
  · dsimp only
    split
    · rfl
    · rfl
    · rfl
    · exact s.doneEntry_pending ..
    · exact s.lateEntry_pending ..
    · split
      · rfl
      · exact s.ungrantedEntry_pending ..

theorem State.report_pending (st : Station) (entries : List (Nat × Nat)) :
    (s.report st entries).1.pending = s.pending := by
  induction entries generalizing s with
  | nil => rfl
  | cons e rest ih => exact (ih _).trans (s.reportEntry_pending ..)

theorem State.cancelEntry_pending (st : Station) (jack : Nat) : (s.cancelEntry st jack).1.pending = s.pending := by
  rcases (s.cancelEntry_cases st jack).2 with e | ⟨_, _, e⟩ <;> rw [e]
  rfl

theorem State.cancel_pending (st : Station) (jacks : List Byte) : (s.cancel st jacks).1.pending = s.pending := by
  induction jacks generalizing s with
  | nil => rfl
  | cons b rest ih => exact (ih _).trans (s.cancelEntry_pending ..)

/-! ### Jacks, the mode and the plan (chapters 1, 6 and 7) -/

@[simp] theorem State.defineJack_pending (j : JackIx) (st : Station) (g : Fin 8) (k : SectorIx) :
    (s.defineJack j st g k).pending = s.pending := by simp [State.defineJack]

@[simp] theorem State.undefineJack_pending (j : JackIx) : (s.undefineJack j).pending = s.pending := by
  simp [State.undefineJack]

@[simp] theorem State.surveyJack_pending (j : JackIx) (height : Nat) : (s.surveyJack j height).pending = s.pending := by
  unfold State.surveyJack
  dsimp only
  split
  · rfl
  · simp

@[simp] theorem State.excludeJack_pending (j : JackIx) : (s.excludeJack j).pending = s.pending := by
  simp [State.excludeJack]

@[simp] theorem State.includeJack_pending (j : JackIx) : (s.includeJack j).pending = s.pending := by
  simp [State.includeJack]

@[simp] theorem State.leaveFor_pending (m : Mode) : (s.leaveFor m).pending = s.pending := by
  unfold State.leaveFor
  dsimp only
  split <;> rfl

@[simp] theorem State.applyPlan_pending : s.applyPlan.pending = s.pending := by
  unfold State.applyPlan State.planHolds
  dsimp only
  split
  · rfl
  · simp

/-! ### The memories (chapters 10 and 11) -/

@[simp] theorem State.endSave_pending (snapshot : Configuration) (serial : Nat) (good : Bool) :
    (s.endSave snapshot serial good).pending = s.pending := by
  unfold State.endSave
  dsimp only
  split <;> exact State.respond_pending ..

@[simp] theorem State.replaceConfiguration_pending (c : Configuration) :
    (s.replaceConfiguration c).pending = s.pending := State.setSpeeds_pending ..

@[simp] theorem State.adopt_pending (c : Configuration) : (s.adopt c).pending = s.pending := by simp [State.adopt]

@[simp] theorem State.endLoad_pending (intact : Bool) : (s.endLoad intact).pending = s.pending := by
  unfold State.endLoad
  split <;> simp

@[simp] theorem State.endFactory_pending : s.endFactory.pending = s.pending := by simp [State.endFactory]

@[simp] theorem State.rebuildRecords_pending (c : Configuration) : (s.rebuildRecords c).pending = s.pending := by
  rw [State.rebuildRecords]

@[simp] theorem State.rebuild_pending (c : Configuration) : (s.rebuild c).pending = s.pending := by
  rw [State.rebuild_eq]
  simp

@[simp] theorem State.creditOutage_pending : s.creditOutage.pending = s.pending :=
  (State.placeExposed_pending _).trans (s.credit_pending _)

@[simp] theorem State.loseDeck_pending (c : Configuration) : (s.loseDeck c).pending = s.pending := rfl

@[simp] theorem State.startBlocks_pending (c : Configuration) (battery : Nat) :
    (s.startBlocks c battery).pending = s.pending := rfl

@[simp] theorem State.startUp_pending (retainedBad retainedIntact storeIntact : Bool) (battery : Nat) :
    (s.startUp retainedBad retainedIntact storeIntact battery).pending = s.pending := by
  unfold State.startUp State.startUpFound
  simp only [State.rewrite_pending, State.startBlocks_pending, State.deriveMode_pending]
  split <;> simp

end Sys2Proof.Machine
end

section
/-! SUPPORT. No serving rule touches the queue. -/

namespace Sys2Proof.Machine

variable {s : State}

theorem serveJackDefineAny_pending (item : Item) (payload : List Byte) :
    (serveJackDefineAny item payload s).1.pending = s.pending := by
  unfold serveJackDefineAny serveJackDefine serveJackUndefine
  split
  · split
    · rfl
    · split
      · rfl
      · split_ifs <;> simp
  · split
    · rfl
    · split_ifs <;> simp
  · split_ifs <;> rfl

theorem serveSurvey_pending (item : Item) (payload : List Byte) :
    (serveSurvey item payload s).1.pending = s.pending := by
  unfold serveSurvey
  dsimp only
  split
  · rfl
  · split_ifs <;> simp

theorem serveRodExtend_pending (item : Item) (payload : List Byte) :
    (serveRodExtend item payload s).1.pending = s.pending := by
  unfold serveRodExtend
  dsimp only
  split
  · rfl
  · split_ifs <;> rfl

theorem serveJackExclude_pending (item : Item) : (serveJackExclude item s).1.pending = s.pending := by
  unfold serveJackExclude
  dsimp only
  split
  · rfl
  · split_ifs <;> simp

theorem serveJackInclude_pending (item : Item) : (serveJackInclude item s).1.pending = s.pending := by
  unfold serveJackInclude
  dsimp only
  split
  · rfl
  · split_ifs <;> simp

theorem serveJackClear_pending (item : Item) : (serveJackClear item s).1.pending = s.pending := by
  unfold serveJackClear
  dsimp only
  split
  · rfl
  · split_ifs <;> rfl

theorem serveJackSet_pending (item : Item) (payload : List Byte) :
    (serveJackSet item payload s).1.pending = s.pending := by
  unfold serveJackSet
  split
  · exact serveJackExclude_pending item
  · exact serveJackInclude_pending item
  · exact serveJackClear_pending item
  · split_ifs <;> rfl

theorem serveSectorDefineAny_pending (item : Item) (payload : List Byte) :
    (serveSectorDefineAny item payload s).1.pending = s.pending := by
  unfold serveSectorDefineAny serveSectorDefine serveSectorUndefine
  split
  · split
    · rfl
    · split
      · rfl
      · split_ifs <;> simp
  · split
    · rfl
    · split_ifs <;> simp
  · split_ifs <;> rfl

theorem serveSectorBase_pending (item : Item) (payload : List Byte) :
    (serveSectorBase item payload s).1.pending = s.pending := by
  unfold serveSectorBase
  dsimp only
  split
  · rfl
  · split_ifs <;> simp

theorem serveLayerPlaced_pending (item : Item) (payload : List Byte) :
    (serveLayerPlaced item payload s).1.pending = s.pending := by
  have appended : ∀ k slot free thickness c,
      (s.appendLayer k slot free thickness c).placeExposed.pending = s.pending :=
    fun _ _ _ _ _ => State.placeExposed_pending _
  unfold serveLayerPlaced
  dsimp only
  split
  · rfl
  · split
    · rfl
    · split
      · rfl
      · split
        · rfl
        · split_ifs
          · rfl
          · rfl
          · split
            · rfl
            · exact appended ..

theorem serveLayerWithdraw_pending (item : Item) : (serveLayerWithdraw item s).1.pending = s.pending := by
  unfold serveLayerWithdraw
  split
  · rfl
  · split
    · rfl
    · split_ifs <;> rfl

theorem serveStrokeDemand_pending (p : Port) (payload : List Byte) :
    (serveStrokeDemand p payload s).1.pending = s.pending := by
  unfold serveStrokeDemand
  split
  · rfl
  · rfl
  · split_ifs
    · rfl
    · rfl
    · rfl
    · exact s.demand_pending ..

theorem serveStrokeReport_pending (p : Port) (payload : List Byte) :
    (serveStrokeReport p payload s).1.pending = s.pending := by
  unfold serveStrokeReport
  split
  · rfl
  · exact s.report_pending ..

theorem serveStrokeCancel_pending (p : Port) (payload : List Byte) :
    (serveStrokeCancel p payload s).1.pending = s.pending := by
  unfold serveStrokeCancel
  split
  · rfl
  · exact s.cancel_pending ..

theorem serveModeSet_pending (payload : List Byte) : (serveModeSet payload s).1.pending = s.pending := by
  have enters : (match s.hMin with
      | none => (s, Reply.refuse .state 1)
      | some m => ((s.enterCrawl m).commit, .accept (modeAnswer (s.enterCrawl m).commit))).1.pending = s.pending := by
    split <;> rfl
  unfold serveModeSet
  split
  · split_ifs <;> simp
  · split
    · rfl
    · rfl
    · exact enters
    · exact enters
  · split_ifs <;> simp
  · rfl

theorem serveHoldPlace_pending (p : Port) (payload : List Byte) :
    (serveHoldPlace p payload s).1.pending = s.pending := by
  unfold serveHoldPlace
  split
  · rfl
  · split
    · rfl
    · split_ifs <;> rfl

theorem serveHoldRelease_pending (p : Port) (payload : List Byte) :
    (serveHoldRelease p payload s).1.pending = s.pending := by
  unfold serveHoldRelease
  split
  · rfl
  · split
    · rfl
    · split_ifs <;> rfl

theorem servePlanStage_pending (item : Item) (payload : List Byte) :
    (servePlanStage item payload s).1.pending = s.pending := by
  unfold servePlanStage
  dsimp only
  split
  · rfl
  · split_ifs <;> rfl

theorem servePlanApply_pending : (servePlanApply s).1.pending = s.pending := by
  unfold servePlanApply
  split_ifs <;> simp

theorem serveCounters_pending (payload : List Byte) : (serveCounters payload s).1.pending = s.pending := by
  unfold serveCounters
  split <;> rfl

theorem serveDiagnose_pending (seen : Findings) : (serveDiagnose seen s).1.pending = s.pending := by
  unfold serveDiagnose
  dsimp only
  split <;> rfl

theorem servePortSet_pending (item : Item) (payload : List Byte) :
    (servePortSet item payload s).1.pending = s.pending := by
  unfold servePortSet
  split
  · rfl
  · split <;> rfl

theorem serveConfigStart_pending (op : StoreOp) : (serveConfigStart op s).1.pending = s.pending := by
  unfold serveConfigStart
  split_ifs <;> rfl

theorem serveClearDeck_pending : (serveClearDeck s).1.pending = s.pending := by
  unfold serveClearDeck
  split_ifs <;> rfl

theorem serveRequest_pending (r : Request) (p : Port) (item : Item) (payload : List Byte) (seen : Findings) :
    (serveRequest r p item payload seen s).1.pending = s.pending := by
  cases r with
  | deckSummary => rfl
  | jackRead => simp only [serveRequest, serveJackRead]; split <;> rfl
  | sectorRead => simp only [serveRequest, serveSectorRead]; split <;> rfl
  | layerRead => simp only [serveRequest, serveLayerRead]; split <;> [rfl; split <;> rfl]
  | probeRead => simp only [serveRequest, serveProbeRead]; split <;> rfl
  | planRead => simp only [serveRequest, servePlanRead, servePlanReadState]; split <;> [rfl; split <;> rfl]
  | identity => rfl
  | strokeDemand => exact serveStrokeDemand_pending p payload
  | strokeReport => exact serveStrokeReport_pending p payload
  | strokeCancel => exact serveStrokeCancel_pending p payload
  | stationView => simp only [serveRequest, serveStationView]; split <;> [rfl; split <;> rfl]
  | layerPlaced => exact serveLayerPlaced_pending item payload
  | feedAdvice => rfl
  | layerWithdraw => exact serveLayerWithdraw_pending item
  | holdPlace => exact serveHoldPlace_pending p payload
  | holdRelease => exact serveHoldRelease_pending p payload
  | holdList => simp only [serveRequest, serveHoldList]; split <;> rfl
  | modeSet => exact serveModeSet_pending payload
  | survey => exact serveSurvey_pending item payload
  | rodExtend => exact serveRodExtend_pending item payload
  | jackSet => exact serveJackSet_pending item payload
  | jackDefine => exact serveJackDefineAny_pending item payload
  | sectorDefine => exact serveSectorDefineAny_pending item payload
  | sectorBase => exact serveSectorBase_pending item payload
  | planStage => exact servePlanStage_pending item payload
  | planApply => exact servePlanApply_pending
  | silence => rfl
  | configSave => rfl
  | configLoad => exact serveConfigStart_pending .load
  | configFactory => exact serveConfigStart_pending .factory
  | clearDeck => exact serveClearDeck_pending
  | restart => rfl
  | diagnose => exact serveDiagnose_pending seen
  | counters => exact serveCounters_pending payload
  | portSet => exact servePortSet_pending item payload

end Sys2Proof.Machine
end

section
/-! SUPPORT. Every command completes and leaves the queue (log entries 2, 8 and 9): a request row by the serving rule of
its frame, any other by its own rule. -/

namespace Sys2Proof.Machine

variable {s t : State} {p : Port}

/-! ### Frames and bytes (R143 to R149) -/

theorem State.takeFrame_pending (p : Port) (code : Byte) (item : Item) (payload : List Byte) (seen : Findings) :
    (s.takeFrame p code item payload seen).pending = s.pending := by
  unfold State.takeFrame
  split
  · rw [State.take_cases]
    split_ifs
    · simp
    · simp
    · simp [serveRequest_pending]
  · exact (State.respond_pending ..).trans (s.goodFrame_pending p)

/-- A frame's judgement leaves the queue, and so does what a frame meets otherwise. -/
theorem State.onFrame_pending {n : Nat} {judge : State → State}
    (judged : (judge (s.setReceiver p .listening)).pending = s.pending) :
    (s.onFrame p n judge).pending = s.pending := by
  unfold State.onFrame
  split
  · rfl
  · split <;> simp
  all_goals
    split
    · exact s.lengthDiscard_pending p
    · exact judged

theorem State.completeFrame_pending (p : Port) (frame : List Byte) (seen : Findings) :
    (s.completeFrame p frame seen).pending = s.pending := by
  unfold State.completeFrame
  refine State.onFrame_pending ?_
  split
  · exact State.takeFrame_pending ..
  · rfl

theorem State.hear_pending (p : Port) (b : Byte) (seen : Findings) : (s.hear p b seen).pending = s.pending := by
  unfold State.hear
  split
  · split_ifs <;> rfl
  · unfold State.gather
    split
    · rfl
    · exact s.lengthDiscard_pending p
    · exact State.completeFrame_pending ..
  · split_ifs <;> rfl
  · unfold State.gatherServing
    split
    · rfl
    · exact s.lengthDiscard_pending p
    · rfl
  · rfl

/-! ### Commands -/

/-- A command's outcome on `s` is a state, with the queue of `s`. -/
def Completes (s : State) (r : Host.Outcome State Fault Refusal) : Prop := ∃ t, r = .next t ∧ t.pending = s.pending

theorem Completes.next (same : t.pending = s.pending) : Completes s (.next t) := ⟨t, rfl, same⟩

theorem Completes.whenRunning {f : State → State} (same : (f s).pending = s.pending) :
    Completes s (whenRunning s f) := by
  refine .next ?_
  split
  · exact same
  · rfl

theorem execConfigSaveEnd_completes (good : Bool) : Completes s (execConfigSaveEnd good s) := by
  refine .whenRunning ?_
  split
  · exact s.endSave_pending ..
  all_goals rfl

theorem execConfigLoadEnd_completes (intact : Bool) : Completes s (execConfigLoadEnd intact s) := by
  refine .whenRunning ?_
  split
  · exact s.endLoad_pending intact
  all_goals rfl

theorem execConfigFactoryEnd_completes : Completes s (execConfigFactoryEnd s) := by
  refine .whenRunning ?_
  split
  · exact s.endFactory_pending
  all_goals rfl

theorem execFrameCheckFail_completes (code : Byte) (item : Item) (payload : List Byte) :
    Completes s (execFrameCheckFail p code item payload s) := by
  refine .whenRunning ?_
  exact State.onFrame_pending rfl

theorem execFrameLengthDiscard_completes : Completes s (execFrameLengthDiscard p s) := by
  refine .whenRunning ?_
  exact s.lengthDiscard_pending p

theorem execAnswerSent_completes : Completes s (execAnswerSent p s) := by
  refine .whenRunning ?_
  exact s.answerLeft_pending p

theorem execFrameOverrunDiscard_completes : Completes s (execFrameOverrunDiscard p s) := by
  refine .whenRunning ?_
  split <;> rfl

theorem execGapTimerExpiry_completes : Completes s (execGapTimerExpiry p s) := by
  refine .whenRunning ?_
  split <;> rfl

theorem execAliveTimerExpiry_completes : Completes s (execAliveTimerExpiry p s) := by
  refine .whenRunning ?_
  split
  · exact s.setAlive_pending ..
  · rfl

theorem execGrantExpiry_completes (j : JackIx) : Completes s (execGrantExpiry j s) := by
  refine .whenRunning ?_
  split <;> rfl

theorem execProbeSampleExpiry_completes (samples : Vector Int 12) (battery : Nat) :
    Completes s (execProbeSampleExpiry samples battery s) := by
  refine .whenRunning ?_
  split <;> rfl

theorem execMaturityIntervalExpiry_completes : Completes s (execMaturityIntervalExpiry s) := by
  refine .whenRunning ?_
  split
  · exact s.matureDeck_pending
  · rfl

theorem execHoldFilterExpiry_completes : Completes s (execHoldFilterExpiry s) := by
  refine .whenRunning ?_
  split
  · exact s.decideLine_pending
  · rfl

theorem execHoldLineChange_completes (low : Bool) : Completes s (execHoldLineChange low s) := by
  refine .next ?_
  split <;> rfl

theorem execRunMarkBreak_completes : Completes s (execRunMarkBreak s) := by
  refine .next ?_
  split <;> rfl

theorem execPowerOn_completes : Completes s (execPowerOn s) := by
  unfold execPowerOn
  split
  · refine .next ?_
    split <;> exact s.halt_pending _
  all_goals exact .next rfl

theorem execResetLineLow_completes : Completes s (execResetLineLow s) := by
  dsimp only [execResetLineLow]
  split
  · exact .next rfl
  all_goals exact .next (State.halt_pending ..)

theorem execResetLineHigh_completes : Completes s (execResetLineHigh s) := by
  dsimp only [execResetLineHigh]
  split
  · exact .next (State.halt_pending ..)
  all_goals exact .next rfl

theorem execStartUpSequence_completes (retainedIntact storeIntact : Bool) (battery : Nat) :
    Completes s (execStartUpSequence retainedIntact storeIntact battery s) := by
  unfold execStartUpSequence
  split
  · exact .next (State.startUp_pending (battery := battery) ..)
  all_goals exact .next rfl

theorem execByteReceived_completes (b : Byte) (seen : Findings) : Completes s (execByteReceived p b seen s) := by
  refine .next ?_
  split
  · exact State.hear_pending ..
  · rfl

theorem exec_completes (c : Instr) (s : State) : Completes s (exec c s) := by
  cases row : frame? (seenBy c) c with
  | some f =>
    rcases exec_of_frame row s with e | e <;> rw [e]
    · exact .next rfl
    · exact .whenRunning (State.onFrame_pending (State.takeFrame_pending ..))
  | none =>
    cases c with
    | configSaveEnd good => exact execConfigSaveEnd_completes good
    | configLoadEnd intact => exact execConfigLoadEnd_completes intact
    | configFactoryEnd => exact execConfigFactoryEnd_completes
    | frameCheckFail p code item payload => exact execFrameCheckFail_completes code item payload
    | frameLengthDiscard p => exact execFrameLengthDiscard_completes
    | frameOverrunDiscard p => exact execFrameOverrunDiscard_completes
    | gapTimerExpiry p => exact execGapTimerExpiry_completes
    | answerSent p => exact execAnswerSent_completes
    | aliveTimerExpiry p => exact execAliveTimerExpiry_completes
    | grantExpiry j => exact execGrantExpiry_completes j
    | probeSampleExpiry samples battery => exact execProbeSampleExpiry_completes samples battery
    | maturityIntervalExpiry => exact execMaturityIntervalExpiry_completes
    | holdLineChange low => exact execHoldLineChange_completes low
    | holdFilterExpiry => exact execHoldFilterExpiry_completes
    | deckClockAdvance => exact .next rfl
    | powerOn => exact execPowerOn_completes
    | powerFail => exact .next (s.halt_pending .off)
    | resetLineLow => exact execResetLineLow_completes
    | resetLineHigh => exact execResetLineHigh_completes
    | runMarkBreak => exact execRunMarkBreak_completes
    | startUpSequence retainedIntact storeIntact battery => exact execStartUpSequence_completes ..
    | byteReceived p b seen => exact execByteReceived_completes b seen
    | diagnose p item payload seen => simp [frame?, seenBy] at row
    | _ => cases row

end Sys2Proof.Machine

open Sys2Proof Sys2Proof.Machine

/-- Settles O3: a request row is its frame's completion, and every other row ends in a state by its own rule. -/
theorem everyCommandCompletes : Obligations.EveryCommandCompletes := exec_completes

/-- Settles O1, by the equation of `step` for a queue that is not empty. -/
theorem stepRunsFrontCommand : Obligations.StepRunsFrontCommand := by
  intro c rest s waiting
  rw [step, waiting]

end
